-- ==== Sys2Proof/Word.lean ====
section
/-! DEFINITION. The widths the spec fixes (00_scope.md R7): the 64-bit block and register word,
the 56-bit compressed key, the 48-bit round key, the 32-bit half block, the 28-bit key half and
the byte of the stream layer. None of them is a parameter. -/
namespace Sys2Proof

/-- A block, a raw key, a register value or a command word: 64 bits (R7, R21, R80). -/
abbrev Word := BitVec 64

/-- A compressed key, parity stripped: 56 bits (R7). -/
abbrev CompressedKey := BitVec 56

/-- One round's subkey: 48 bits (R7). -/
abbrev RoundKey := BitVec 48

/-- The left or right half of a block during the rounds: 32 bits (R7). -/
abbrev Half := BitVec 32

/-- The left or right half of the key during the schedule: 28 bits (R7). -/
abbrev KeyHalf := BitVec 28

/-- A byte of a host stream (R55). -/
abbrev Byte := BitVec 8

end Sys2Proof
end

