-- ==== Sys2Proof/Syntax.lean ====
section
/-! DEFINITION. The commands of the device, one constructor per row of spec/opcode_table.json
(30_encoding.md R81). -/
namespace Sys2Proof

/-- The 18 commands (R81). FFUNC and RKRD carry RIDX, an unsigned 4-bit round-key index (R82). Its
type holds exactly the 16 values the field has, so every term of this type is well formed. -/
inductive Instr where
  | nop
  | keyldRaw
  | keyldCmp
  | enc
  | dec
  | cbcEnc
  | cbcDec
  | cfbEnc
  | cfbDec
  | permIp
  | permFp
  | permE
  | permP
  | permPc1
  | permPc2
  | sbox
  | ffunc (ridx : Fin 16)
  | rkrd (ridx : Fin 16)
deriving DecidableEq, Repr

end Sys2Proof
end

