-- ==== Sys2Proof/WellFormed.lean ====
section
/-! DEFINITION. Well-formedness. A command needs no check of its own (the type of RIDX admits only
the 16 values of R82), and which 64-bit words stand for a command is the decoder's business
(Decode.lean). What can be ill formed on this device is a raw access at its bus (20_memory.md R51):
three checks, one for each way an access can fail to be one whole register. -/
namespace Sys2Proof

/-- A raw access as a bus adapter sees it (R51): a byte offset from the register block's base, a
width in bits, and the value for a write (no value for a read). -/
structure BusAccess where
  offset : Nat
  width  : Nat
  value  : Option Word
deriving DecidableEq, Repr

/-- R50, R51: a transaction moves one whole 64-bit register. -/
def BusAccess.wholeWord (a : BusAccess) : Bool := a.width == 64

/-- R51: an adapter maps only the offsets that are multiples of 8. -/
def BusAccess.aligned (a : BusAccess) : Bool := a.offset % 8 == 0

/-- R51: the register block covers the offsets 0x00 to 0x38. -/
def BusAccess.inBlock (a : BusAccess) : Bool := a.offset ≤ 0x38

/-- R51: the accesses that have a meaning at the device. -/
def BusAccess.wellFormed (a : BusAccess) : Bool := a.wholeWord && a.aligned && a.inBlock

end Sys2Proof
end

