-- ==== Sys2Proof/Decode.lean ====
section
/-! DEFINITION. The command word (30_encoding.md R80 to R88): its fields, the decoder, total on all
2^64 words and rejecting by name, and the encoder written from the same opcode map. -/
namespace Sys2Proof

/-- OP, bits 7:0 (R80). -/
def opField (w : Word) : BitVec 8 := w.extractLsb' 0 8

/-- RIDX, bits 11:8 (R80, R82). -/
def ridxField (w : Word) : BitVec 4 := w.extractLsb' 8 4

/-- RSVD, bits 63:12 (R80, R83). -/
def rsvdField (w : Word) : BitVec 52 := w.extractLsb' 12 52

/-- RIDX as an index into KS: zero-extended, neither scaled nor sign-extended (R82). -/
def ridxIndex (w : Word) : Fin 16 := (ridxField w).toFin

/-- Why a word is illegal: the three causes of R86. The device reports all three as ILLEGAL_CMD. -/
inductive Illegal where
  /-- RSVD ≠ 0 -/
  | rsvdNonzero
  /-- OP is not in the table of R81 -/
  | unassignedOp
  /-- RIDX ≠ 0 with an OP that takes none -/
  | ridxNonzero
deriving DecidableEq, Repr

/-- The opcode map (R81): the command an OP selects, given the round-key index for the two commands
that use it; no command for an unassigned OP (R87). -/
def mnemonicOf (op : BitVec 8) (ridx : Fin 16) : Option Instr :=
  match op.toNat with
  | 0x00 => some .nop
  | 0x01 => some .keyldRaw
  | 0x02 => some .keyldCmp
  | 0x10 => some .enc
  | 0x11 => some .dec
  | 0x12 => some .cbcEnc
  | 0x13 => some .cbcDec
  | 0x14 => some .cfbEnc
  | 0x15 => some .cfbDec
  | 0x20 => some .permIp
  | 0x21 => some .permFp
  | 0x22 => some .permE
  | 0x23 => some .permP
  | 0x24 => some .permPc1
  | 0x25 => some .permPc2
  | 0x26 => some .sbox
  | 0x27 => some (.ffunc ridx)
  | 0x28 => some (.rkrd ridx)
  | _ => none

/-- The column "uses RIDX" of R81, by OP. -/
def opUsesRidx (op : BitVec 8) : Bool := op == 0x27 || op == 0x28

/-- Decode(w) (R85), with the cause named where the word is illegal (R86). -/
def decode (w : Word) : Except Illegal Instr :=
  if rsvdField w ≠ 0 then .error .rsvdNonzero
  else
    match mnemonicOf (opField w) (ridxIndex w) with
    | none => .error .unassignedOp
    | some i =>
      if opUsesRidx (opField w) || ridxField w == 0 then .ok i else .error .ridxNonzero

/-- The OP of a command (R81). -/
def Instr.op : Instr → BitVec 8
  | .nop => 0x00
  | .keyldRaw => 0x01
  | .keyldCmp => 0x02
  | .enc => 0x10
  | .dec => 0x11
  | .cbcEnc => 0x12
  | .cbcDec => 0x13
  | .cfbEnc => 0x14
  | .cfbDec => 0x15
  | .permIp => 0x20
  | .permFp => 0x21
  | .permE => 0x22
  | .permP => 0x23
  | .permPc1 => 0x24
  | .permPc2 => 0x25
  | .sbox => 0x26
  | .ffunc _ => 0x27
  | .rkrd _ => 0x28

/-- The RIDX a command's word carries: its index for FFUNC and RKRD, else 0 (R83). -/
def Instr.ridx : Instr → BitVec 4
  | .ffunc i => .ofFin i
  | .rkrd i => .ofFin i
  | .nop | .keyldRaw | .keyldCmp | .enc | .dec | .cbcEnc | .cbcDec | .cfbEnc | .cfbDec
  | .permIp | .permFp | .permE | .permP | .permPc1 | .permPc2 | .sbox => 0

/-- The command word: RSVD = 0, then RIDX, then OP (R80, R89). -/
def encode (i : Instr) : Word := 0#52 ++ i.ridx ++ i.op

/-- The instruction this decoder reads from a word of the opcode table's numbering. The table's bit
numbers are the command word's own (R80), and a word is one 64-bit register value, so no byte order
enters. -/
def decodeTableWord (nbits w : Nat) : Option Instr :=
  match decode (BitVec.ofNat 64 (w % 2 ^ nbits)) with
  | .ok i => some i
  | .error _ => none

end Sys2Proof
end

