-- ==== Sys2Proof/Config.lean ====
section
/-! DEFINITION. What the spec leaves open (00_scope.md R8, 93_implementation_defined.md).
SHORT_ALIGN is an argument of the stream procedures (Machine/Stream.lean). The contents of the
round-key file after a reset are a free value. LATENCY has no counterpart but the schedule of turns
in State (log entry 3), and BUS none but the refusal of an access that is not one whole register. -/
namespace Sys2Proof

/-- The open parameter SHORT_ALIGN (20_memory.md R58): where the bytes of a chunk shorter than 8
land in the 64-bit block. -/
inductive ShortAlign where
  /-- the bytes are the least significant ones -/
  | low
  /-- the bytes are the most significant ones, zeros after them -/
  | high
deriving DecidableEq, Repr

/-- Free value: the 16 round keys that KS holds after the n-th reset the platform asserts in a run
("a draw", R39, R260, item I10). It has no body, so nothing can be proved about what they are. -/
opaque Config.ksAfterReset : Nat → Vector RoundKey 16

end Sys2Proof
end

