-- ==== Sys2Proof/Machine/State.lean ====
section
/-! DEFINITION. The state of one device (10_state.md R39), the host beside it (R20) and the
schedule of the two agents; why a step can stop; the state after reset (R260). -/
namespace Sys2Proof.Machine

/-- The eight register slots (R21). -/
inductive Slot where
  | cmd
  | status
  | key
  | din
  | dout
  | chain
  /-- slot 6, reserved (R33) -/
  | reserved6
  /-- slot 7, reserved (R33) -/
  | reserved7
deriving DecidableEq, Repr

/-- The values of ECODE (60_exceptions.md R230). The codes 5 to 15 are never produced, and no term
of this type stands for one (item I20). -/
inductive ErrCode where
  | none
  | illegalCmd
  | noKey
  | busyWrite
  | badWrite
deriving DecidableEq, Repr

/-- What the host does next, in its program order (R20, R50, R62). -/
inductive HostOp where
  /-- HostRead of a slot; the value goes to the host (R52) -/
  | read (r : Slot)
  /-- HostWrite of a slot (R53) -/
  | write (r : Slot) (v : Word)
  /-- WAIT: read STATUS until BUSY = 0 (45_control.md R223) -/
  | wait
  /-- a raw access at the bus, by byte offset and width (R51) -/
  | bus (a : BusAccess)
deriving DecidableEq, Repr

/-- Whose atomic event comes next (R62): the host's transaction, the core's completion, or the
platform's reset (R261). -/
inductive Turn where
  | host
  | core
  | reset
deriving DecidableEq, Repr

/-- The machine. The first nine fields are the complete state of a device (R39); the other five are
the model's own: the host's program, the order of events, what the host has read, the ghost record
of errors that R232 asks for, and the counter of the free value drawn at a reset. -/
structure State where
  /-- KEY, index 2 (R29) -/
  key    : Word
  /-- DIN, index 3 (R30) -/
  din    : Word
  /-- DOUT, index 4 (R31) -/
  dout   : Word
  /-- CHAIN, index 5 (R32) -/
  chain  : Word
  /-- KS, the round-key file (R34) -/
  ks     : Vector RoundKey 16
  /-- STATUS.KV (R25) -/
  kv     : Bool
  /-- STATUS.ERR (R26) -/
  err    : Bool
  /-- STATUS.ECODE, four bits (R26, R230) -/
  ecode  : ErrCode
  /-- PEND, the command accepted and not yet completed (R28) -/
  pend   : Option Instr
  /-- the host operations still to come, in program order (R62) -/
  script : List HostOp
  /-- whose events come next; see Machine/Ops.lean nextTurn for the order when none is left (R62) -/
  turns  : List Turn
  /-- the values the host's reads returned, oldest first (R52) -/
  reads  : List Word
  /-- ghost record of every error raised, oldest first; no event clears it (R232) -/
  raised : List ErrCode
  /-- how many resets the platform has asserted; picks the draw of KS (R260) -/
  resets : Nat
deriving DecidableEq, Repr

/-- The device has no fault: every command is total and "the step cannot fail" (R221), and an error
is a report, not a stop (R225, R235). So no step stops with a fault, and this type has no term. -/
inductive Fault where
deriving DecidableEq, Repr

/-- Why the model gives an event no meaning. -/
inductive Refusal where
  /-- An instruction without a meaning in the model; no arm of exec answers so. Safe. -/
  | notModelled (mnemonic : String)
  /-- A host access that is not one whole 64-bit register at a byte offset 8·i, i in 0..7: "A model
  at transaction level must refuse such an access, not give it a meaning" (R51, item I13). Raised by
  hostTurn. Safe. -/
  | busAccess (offset width : Nat)
deriving DecidableEq, Repr

/-- The machine right after reset (R39, R260), with an empty host program. KS is "any value" by the
spec; the zeros here are the model's choice (log entry 1), and no statement rests on them. -/
def State.reset : State where
  key    := 0
  din    := 0
  dout   := 0
  chain  := 0
  ks     := Vector.replicate 16 0
  kv     := false
  err    := false
  ecode  := .none
  pend   := Option.none
  script := []
  turns  := []
  reads  := []
  raised := []
  resets := 0

end Sys2Proof.Machine
end

