-- ==== Sys2Proof/Machine/Flags.lean ====
section
/-! DEFINITION. The flags (10_state.md R23 to R26, R36): BUSY, KV, ERR and ECODE are all there is,
and no command computes a flag from its data. BUSY is a view of PEND, and STATUS a view of the
four. -/
namespace Sys2Proof.Machine

/-- STATUS.BUSY: a command is pending (R24). -/
def State.busy (s : State) : Bool := s.pend.isSome

/-- The four bits of ECODE (R230). -/
def ErrCode.code : ErrCode → BitVec 4
  | .none => 0
  | .illegalCmd => 1
  | .noKey => 2
  | .busyWrite => 3
  | .badWrite => 4

/-- What a read of STATUS returns: zext_64(ECODE ‖ 0 ‖ ERR ‖ KV ‖ BUSY) (R23, R52). -/
def statusWord (s : State) : Word :=
  (s.ecode.code ++ 0#1 ++ BitVec.ofBool s.err ++ BitVec.ofBool s.kv ++ BitVec.ofBool s.busy).setWidth 64

/-- The bit of a value written to STATUS that acts: bit 2 clears the error record (R23). -/
def clearsError (v : Word) : Bool := v.getLsbD 2

/-- NeedsKV (R220, and R81's column): the commands that read KS. -/
def needsKV : Instr → Bool
  | .enc | .dec | .cbcEnc | .cbcDec | .cfbEnc | .cfbDec | .ffunc _ | .rkrd _ => true
  | .nop | .keyldRaw | .keyldCmp | .permIp | .permFp | .permE | .permP | .permPc1 | .permPc2
  | .sbox => false

end Sys2Proof.Machine
end

