-- ==== Sys2Proof/Machine/Operands.lean ====
section
/-! DEFINITION. Operands and results (30_encoding.md R84). Operands come from registers: a command
reads the low bits of its source register, and the bits above are ignored. A narrow result is
zero-extended into DOUT. -/
namespace Sys2Proof.Machine

/-- The raw-key operand: KEY[63:0] (R84). -/
def rawKey (s : State) : Word := s.key

/-- The compressed-key operand: KEY[55:0] (R84). -/
def compressedKey (s : State) : CompressedKey := s.key.extractLsb' 0 56

/-- The block operand in DIN: DIN[63:0] (R84). -/
def dinBlock (s : State) : Word := s.din

/-- The block operand in CHAIN: CHAIN[63:0] (R84). -/
def chainBlock (s : State) : Word := s.chain

/-- The 56-bit PC2 input: DIN[55:0] (R84). -/
def dinKey56 (s : State) : CompressedKey := s.din.extractLsb' 0 56

/-- The 48-bit S-box input: DIN[47:0] (R84). -/
def dinBits48 (s : State) : BitVec 48 := s.din.extractLsb' 0 48

/-- The half-block operand: DIN[31:0] (R84). -/
def dinHalf (s : State) : Half := s.din.extractLsb' 0 32

/-- The round-key operand: KS[RIDX] (R82, R84). -/
def roundKey (s : State) (i : Fin 16) : RoundKey := s.ks[i]

/-- zext_64 of a narrow result (R11, R84). -/
def zext64 {n : Nat} (v : BitVec n) : Word := v.setWidth 64

end Sys2Proof.Machine
end

