-- ==== Sys2Proof/Machine/Ops.lean ====
section
/-! DEFINITION. The named operations on the state: the register writes of a completing command, the
raising and clearing of an error, the host's register transactions, the issue of a command, reset,
and the order of events. -/
namespace Sys2Proof.Machine

/-! ### What a completing command writes (R40, R221) -/

/-- The end of every command: PEND <- none, so BUSY reads 0 (R221). -/
def complete (s : State) : State := { s with pend := none }

/-- x[DOUT] <- v (R31). -/
def putDout (v : Word) (s : State) : State := { s with dout := v }

/-- x[CHAIN] <- v (R32). -/
def putChain (v : Word) (s : State) : State := { s with chain := v }

/-- All 16 entries of KS at once, and KV <- 1 (R25, R34). -/
def loadSchedule (rk : Vector RoundKey 16) (s : State) : State := { s with ks := rk, kv := true }

/-! ### Errors: raising one, and the host's clearing of the record (R232, R236) -/

/-- raise E (R232): the first error since the last clear is kept; nothing else of the device changes.
The ghost record keeps every error. -/
def raise (e : ErrCode) (s : State) : State :=
  { s with
    err := true
    ecode := if s.err then s.ecode else e
    raised := s.raised ++ [e] }

/-- The "return" from an error (R236): ERR <- 0 and ECODE <- 0. -/
def clearError (s : State) : State := { s with err := false, ecode := .none }

/-! ### Register transactions of the host (R50 to R54) -/

/-- The value HostRead returns (R52). -/
def hostRead (r : Slot) (s : State) : Word :=
  match r with
  | .cmd => 0
  | .status => statusWord s
  | .key => s.key
  | .din => s.din
  | .dout => s.dout
  | .chain => s.chain
  | .reserved6 => 0
  | .reserved7 => 0

/-- PEND <- d: the command is accepted, and BUSY now reads 1 (R220). -/
def accept (d : Instr) (s : State) : State := { s with pend := some d }

/-- IssueCommand(w) (R220): the checks in the spec's order, the first that fails deciding. -/
def issueCommand (w : Word) (s : State) : State :=
  if s.busy then raise .busyWrite s
  else
    match decode w with
    | .error _ => raise .illegalCmd s
    | .ok d => if needsKV d && !s.kv then raise .noKey s else accept d s

/-- A write of KEY, DIN or CHAIN: refused with BUSY_WRITE while a command is pending (R53). -/
def writeOperand (store : State → State) (s : State) : State :=
  if s.busy then raise .busyWrite s else store s

/-- HostWrite(i, v) (R53). -/
def hostWrite (r : Slot) (v : Word) (s : State) : State :=
  match r with
  | .cmd => issueCommand v s
  | .status => if clearsError v then clearError s else s
  | .key => writeOperand (fun s => { s with key := v }) s
  | .din => writeOperand (fun s => { s with din := v }) s
  | .chain => writeOperand (fun s => { s with chain := v }) s
  | .dout => raise .badWrite s
  | .reserved6 => raise .badWrite s
  | .reserved7 => raise .badWrite s

/-- The index of a slot (R21). -/
def Slot.index : Slot → Fin 8
  | .cmd => 0
  | .status => 1
  | .key => 2
  | .din => 3
  | .dout => 4
  | .chain => 5
  | .reserved6 => 6
  | .reserved7 => 7

/-- The slot of an index; none outside 0..7 (R21). -/
def slotOfIndex : Nat → Option Slot
  | 0 => some .cmd
  | 1 => some .status
  | 2 => some .key
  | 3 => some .din
  | 4 => some .dout
  | 5 => some .chain
  | 6 => some .reserved6
  | 7 => some .reserved7
  | _ => none

/-- The slot a raw access reaches: offset / 8 for a whole register, none for any other access
(R51). -/
def busSlot (a : BusAccess) : Option Slot :=
  if a.wellFormed then slotOfIndex (a.offset / 8) else none

/-! ### Reset (R260, R261) -/

/-- Reset(): every field of the device to its reset value, KS to a draw, a pending command aborted.
The host's program, what it has read and the ghost record are not the device's and stay. -/
def resetDevice (s : State) : State :=
  { s with
    key := 0
    din := 0
    dout := 0
    chain := 0
    ks := Config.ksAfterReset s.resets
    kv := false
    err := false
    ecode := .none
    pend := none
    resets := s.resets + 1 }

/-! ### The host's event -/

/-- The host has done its next operation. -/
def popScript (s : State) : State := { s with script := s.script.tail }

/-- The host receives a value it read. -/
def logRead (v : Word) (s : State) : State := { s with reads := s.reads ++ [v] }

/-- A raw access that reaches a slot is the transaction on that slot (R51). -/
def busTransaction (a : BusAccess) (r : Slot) (s : State) : State :=
  match a.value with
  | some v => hostWrite r v s
  | none => logRead (hostRead r s) s

/-- The host's turn: the next operation of its program, one atomic transaction (R54, R62). One
iteration of WAIT is one read of STATUS; WAIT stays the next operation until that read shows
BUSY = 0 (R223). A host whose program has ended does nothing (R225, R245). -/
def hostTurn (s : State) : Host.Outcome State Fault Refusal :=
  match s.script with
  | [] => .next s
  | .read r :: _ => .next (logRead (hostRead r s) (popScript s))
  | .write r v :: _ => .next (hostWrite r v (popScript s))
  | .wait :: _ => .next (if (hostRead .status s).getLsbD 0 then s else popScript s)
  | .bus a :: _ =>
    match busSlot a with
    | some r => .next (busTransaction a r (popScript s))
    | none => .refused (.busAccess a.offset a.width)

/-! ### The order of events (R62, R234, R266) -/

/-- Whose event comes next. The field turns says so, so every order of host transactions,
completions and resets is some state's order (R62, R234). Where it is used up, the core goes first
while a command is pending, else the host: so the pending command is not put off for ever, which is
the weak fairness of R266 (log entry 3). -/
def nextTurn (s : State) : Turn :=
  match s.turns with
  | t :: _ => t
  | [] => if s.busy then .core else .host

/-- The turn taken is used up. -/
def popTurn (s : State) : State := { s with turns := s.turns.tail }

end Sys2Proof.Machine
end

