-- ==== Sys2Proof/Machine/Control.lean ====
section
/-! DEFINITION. The control command (45_control.md R222). -/
namespace Sys2Proof.Machine

/-- NOP (R222): nothing at completion but PEND <- none. -/
def execNop (s : State) : Host.Outcome State Fault Refusal :=
  .next (complete s)

end Sys2Proof.Machine
end

