-- ==== Sys2Proof/Machine/Permutation.lean ====
section
/-! DEFINITION. The bit permutation engine (40_permutation_engine.md): the primitive, the six
tables, and the six commands that apply one table to DIN. -/
namespace Sys2Proof.Machine

/-- DES position p of an N-bit vector, 1 ≤ p ≤ N from the left: register bit v[N-p] (R9, R10). -/
def desBit {n : Nat} (v : BitVec n) (p : Nat) : Bool := v.getLsbD (n - p)

/-- Permute(T, N, M, v) (R100): output position j is input position T[j]. The output is built from
its position 1 on, each bit shifted in at the right. -/
def permute (table : List Nat) (n m : Nat) (v : BitVec n) : BitVec m :=
  table.foldl (fun w p => w.shiftConcat (desBit v p)) 0#m

/-- IP, 64 to 64 (R102). -/
def tableIP : List Nat :=
  [58, 50, 42, 34, 26, 18, 10,  2,
   60, 52, 44, 36, 28, 20, 12,  4,
   62, 54, 46, 38, 30, 22, 14,  6,
   64, 56, 48, 40, 32, 24, 16,  8] ++
  [57, 49, 41, 33, 25, 17,  9,  1,
   59, 51, 43, 35, 27, 19, 11,  3,
   61, 53, 45, 37, 29, 21, 13,  5,
   63, 55, 47, 39, 31, 23, 15,  7]

/-- FP = IP⁻¹, 64 to 64 (R103). -/
def tableFP : List Nat :=
  [40,  8, 48, 16, 56, 24, 64, 32,
   39,  7, 47, 15, 55, 23, 63, 31,
   38,  6, 46, 14, 54, 22, 62, 30,
   37,  5, 45, 13, 53, 21, 61, 29] ++
  [36,  4, 44, 12, 52, 20, 60, 28,
   35,  3, 43, 11, 51, 19, 59, 27,
   34,  2, 42, 10, 50, 18, 58, 26,
   33,  1, 41,  9, 49, 17, 57, 25]

/-- E, 32 to 48 (R104). -/
def tableE : List Nat :=
  [32,  1,  2,  3,  4,  5,
    4,  5,  6,  7,  8,  9,
    8,  9, 10, 11, 12, 13,
   12, 13, 14, 15, 16, 17] ++
  [16, 17, 18, 19, 20, 21,
   20, 21, 22, 23, 24, 25,
   24, 25, 26, 27, 28, 29,
   28, 29, 30, 31, 32,  1]

/-- P, 32 to 32 (R105). -/
def tableP : List Nat :=
  [16,  7, 20, 21, 29, 12, 28, 17,
    1, 15, 23, 26,  5, 18, 31, 10,
    2,  8, 24, 14, 32, 27,  3,  9,
   19, 13, 30,  6, 22, 11,  4, 25]

/-- PC1, 64 to 56 (R106): the entries of C, then those of D. -/
def tablePC1 : List Nat :=
  [57, 49, 41, 33, 25, 17,  9,
    1, 58, 50, 42, 34, 26, 18,
   10,  2, 59, 51, 43, 35, 27,
   19, 11,  3, 60, 52, 44, 36] ++
  [63, 55, 47, 39, 31, 23, 15,
    7, 62, 54, 46, 38, 30, 22,
   14,  6, 61, 53, 45, 37, 29,
   21, 13,  5, 28, 20, 12,  4]

/-- PC2, 56 to 48 (R107). -/
def tablePC2 : List Nat :=
  [14, 17, 11, 24,  1,  5,  3, 28,
   15,  6, 21, 10, 23, 19, 12,  4,
   26,  8, 16,  7, 27, 20, 13,  2] ++
  [41, 52, 31, 37, 47, 55, 30, 40,
   51, 45, 33, 48, 44, 49, 39, 56,
   34, 53, 46, 42, 50, 36, 29, 32]

/-- IP of a block (R102). -/
def permIP (v : Word) : Word := permute tableIP 64 64 v

/-- FP of a block (R103). -/
def permFP (v : Word) : Word := permute tableFP 64 64 v

/-- E of a half block (R104). -/
def expand (v : Half) : BitVec 48 := permute tableE 32 48 v

/-- P of a half block (R105). -/
def permP (v : Half) : Half := permute tableP 32 32 v

/-- PC1 of a raw key (R106). -/
def permPC1 (v : Word) : CompressedKey := permute tablePC1 64 56 v

/-- PC2 of the recombined key halves (R107). -/
def permPC2 (v : CompressedKey) : RoundKey := permute tablePC2 56 48 v

/-- PERM_IP (R108). -/
def execPermIp (s : State) : Host.Outcome State Fault Refusal :=
  .next (complete (putDout (permIP (dinBlock s)) s))

/-- PERM_FP (R109). -/
def execPermFp (s : State) : Host.Outcome State Fault Refusal :=
  .next (complete (putDout (permFP (dinBlock s)) s))

/-- PERM_E (R110). -/
def execPermE (s : State) : Host.Outcome State Fault Refusal :=
  .next (complete (putDout (zext64 (expand (dinHalf s))) s))

/-- PERM_P (R111). -/
def execPermP (s : State) : Host.Outcome State Fault Refusal :=
  .next (complete (putDout (zext64 (permP (dinHalf s))) s))

/-- PERM_PC1 (R112). -/
def execPermPc1 (s : State) : Host.Outcome State Fault Refusal :=
  .next (complete (putDout (zext64 (permPC1 (dinBlock s))) s))

/-- PERM_PC2 (R113). -/
def execPermPc2 (s : State) : Host.Outcome State Fault Refusal :=
  .next (complete (putDout (zext64 (permPC2 (dinKey56 s))) s))

end Sys2Proof.Machine
end

