-- ==== Sys2Proof/Machine/KeySchedule.lean ====
section
/-! DEFINITION. The key schedule generator (41_key_schedule.md): the split, the rotations, PC2 in
each round, and the commands KEYLD_RAW, KEYLD_CMP and RKRD. -/
namespace Sys2Proof.Machine

/-- SHIFT[0..15] (R132). -/
def shifts : List Nat := [1, 1, 2, 2, 2, 2, 2, 2, 1, 2, 2, 2, 2, 2, 2, 1]

/-- C, positions 1..28 of a compressed key: K56[55:28] (R131). -/
def halfC (k : CompressedKey) : KeyHalf := k.extractLsb' 28 28

/-- D, positions 29..56 of a compressed key: K56[27:0] (R131). -/
def halfD (k : CompressedKey) : KeyHalf := k.extractLsb' 0 28

/-- Cyclic left rotation of a key half (R11, R132). -/
def rotl28 (v : KeyHalf) (n : Nat) : KeyHalf := v.rotateLeft n

/-- The rounds of the schedule (R133): both halves are rotated, PC2 of their recombination is the
round's key, and the rotated halves feed the next round. -/
def scheduleRounds (c d : KeyHalf) : List Nat → List RoundKey
  | [] => []
  | n :: rest =>
    permPC2 (rotl28 c n ++ rotl28 d n) :: scheduleRounds (rotl28 c n) (rotl28 d n) rest

/-- One key for each shift. -/
theorem length_scheduleRounds (ns : List Nat) :
    ∀ c d : KeyHalf, (scheduleRounds c d ns).length = ns.length := by
  induction ns with
  | nil => intro c d; rfl
  | cons n rest ih => intro c d; simp [scheduleRounds, ih]

/-- KeySchedule(k56) (R130, R133): the 16 round keys, in encryption order. -/
def keySchedule (k : CompressedKey) : Vector RoundKey 16 :=
  ⟨(scheduleRounds (halfC k) (halfD k) shifts).toArray,
    List.size_toArray.trans (length_scheduleRounds shifts _ _)⟩

/-- KEYLD_RAW (R134). -/
def execKeyldRaw (s : State) : Host.Outcome State Fault Refusal :=
  .next (complete (loadSchedule (keySchedule (permPC1 (rawKey s))) s))

/-- KEYLD_CMP (R135). -/
def execKeyldCmp (s : State) : Host.Outcome State Fault Refusal :=
  .next (complete (loadSchedule (keySchedule (compressedKey s)) s))

/-- RKRD i (R136). -/
def execRkrd (i : Fin 16) (s : State) : Host.Outcome State Fault Refusal :=
  .next (complete (putDout (zext64 (roundKey s i)) s))

end Sys2Proof.Machine
end

