-- ==== Sys2Proof/Machine/BlockCipher.lean ====
section
/-! DEFINITION. The single-block cipher (43_block_cipher.md): the 16-round network, the two orders
of the round keys, and the commands ENC and DEC. -/
namespace Sys2Proof.Machine

/-- The Feistel rounds over a sequence of round keys (R170, R172): the halves are swapped after
every round but the last. -/
def feistelRounds : List RoundKey → Half × Half → Half × Half
  | [], lr => lr
  | [k], lr => (lr.1 ^^^ roundF lr.2 k, lr.2)
  | k :: k' :: ks, lr => feistelRounds (k' :: ks) (lr.2, lr.1 ^^^ roundF lr.2 k)

/-- Crypt(b, K) (R170, R173): IP and the split, the rounds, the recombination and FP. -/
def crypt (b : Word) (keys : List RoundKey) : Word :=
  let t := permIP b
  let lr := feistelRounds keys (t.extractLsb' 32 32, t.extractLsb' 0 32)
  permFP (lr.1 ++ lr.2)

/-- DES_E (R171): the schedule in forward order. -/
def desE (ks : Vector RoundKey 16) (b : Word) : Word := crypt b ks.toList

/-- DES_D (R171): the schedule in reverse order. -/
def desD (ks : Vector RoundKey 16) (b : Word) : Word := crypt b ks.toList.reverse

/-- ENC (R174). -/
def execEnc (s : State) : Host.Outcome State Fault Refusal :=
  .next (complete (putDout (desE s.ks (dinBlock s)) s))

/-- DEC (R175). -/
def execDec (s : State) : Host.Outcome State Fault Refusal :=
  .next (complete (putDout (desD s.ks (dinBlock s)) s))

end Sys2Proof.Machine
end

