-- ==== Sys2Proof/Machine/Modes.lean ====
section
/-! DEFINITION. The block-level chaining commands (44_modes.md R190 to R193). ECB at block level is
ENC and DEC (R194). -/
namespace Sys2Proof.Machine

/-- CBC_ENC (R190). -/
def execCbcEnc (s : State) : Host.Outcome State Fault Refusal :=
  let t := desE s.ks (dinBlock s ^^^ chainBlock s)
  .next (complete (putChain t (putDout t s)))

/-- CBC_DEC (R191): the next chaining value is the input ciphertext, not the result. -/
def execCbcDec (s : State) : Host.Outcome State Fault Refusal :=
  let t := desD s.ks (dinBlock s) ^^^ chainBlock s
  .next (complete (putChain (dinBlock s) (putDout t s)))

/-- CFB_ENC (R192): the next chaining value is the produced ciphertext. -/
def execCfbEnc (s : State) : Host.Outcome State Fault Refusal :=
  let t := desE s.ks (chainBlock s) ^^^ dinBlock s
  .next (complete (putChain t (putDout t s)))

/-- CFB_DEC (R193): the keystream is DES_E here too; the next chaining value is the consumed
ciphertext. -/
def execCfbDec (s : State) : Host.Outcome State Fault Refusal :=
  let t := desE s.ks (chainBlock s) ^^^ dinBlock s
  .next (complete (putChain (dinBlock s) (putDout t s)))

end Sys2Proof.Machine
end

