-- ==== Sys2Proof/Machine/Dispatch.lean ====
section
/-! DEFINITION. What the core performs at the completion of a command (45_control.md R221): one arm
per command. -/
namespace Sys2Proof.Machine

def exec (i : Instr) (s : State) : Host.Outcome State Fault Refusal :=
  match i with
  | .nop => Sys2Proof.Machine.execNop s
  | .keyldRaw => Sys2Proof.Machine.execKeyldRaw s
  | .keyldCmp => Sys2Proof.Machine.execKeyldCmp s
  | .enc => Sys2Proof.Machine.execEnc s
  | .dec => Sys2Proof.Machine.execDec s
  | .cbcEnc => Sys2Proof.Machine.execCbcEnc s
  | .cbcDec => Sys2Proof.Machine.execCbcDec s
  | .cfbEnc => Sys2Proof.Machine.execCfbEnc s
  | .cfbDec => Sys2Proof.Machine.execCfbDec s
  | .permIp => Sys2Proof.Machine.execPermIp s
  | .permFp => Sys2Proof.Machine.execPermFp s
  | .permE => Sys2Proof.Machine.execPermE s
  | .permP => Sys2Proof.Machine.execPermP s
  | .permPc1 => Sys2Proof.Machine.execPermPc1 s
  | .permPc2 => Sys2Proof.Machine.execPermPc2 s
  | .sbox => Sys2Proof.Machine.execSbox s
  | .ffunc ridx => Sys2Proof.Machine.execFfunc ridx s
  | .rkrd ridx => Sys2Proof.Machine.execRkrd ridx s

end Sys2Proof.Machine
end

