-- ==== Sys2Proof/Machine/Turns.lean ====
section
/-! DEFINITION. The core's turn, the one event that performs a command (45_control.md R221), and how
a command is placed so that the next event performs it. -/
namespace Sys2Proof.Machine

/-- CoreStep (R221): enabled while a command is pending, and then performs it. With none pending the
core has no step, and its turn passes with nothing changed. -/
def coreTurn (s : State) : Host.Outcome State Fault Refusal :=
  match s.pend with
  | some d => exec d s
  | none => .next s

/-- The device right after it has accepted the command d, with the core's turn next: a command is
pending and no other order of events is asked for. A command that reads KS is accepted only while
KV = 1 (R220), so KV is set with it. -/
def placeAccepted (d : Instr) (s : State) : State :=
  { s with pend := some d, kv := s.kv || needsKV d, turns := [] }

/-- An idle device whose host is about to write the word w to CMD. -/
def placeCommandWrite (w : Word) (s : State) : State :=
  { s with pend := none, script := .write .cmd w :: s.script, turns := [] }

end Sys2Proof.Machine
end

