-- ==== Sys2Proof/Machine/Step.lean ====
section
/-! DEFINITION. One step of the machine: one atomic event (20_memory.md R62), and the placing of a
command word. -/
namespace Sys2Proof.Machine

/-- One event: the host's transaction, the core's completion or a reset, as the order of events
says (R54, R62, R221, R261). -/
def step (s : State) : Host.Outcome State Fault Refusal :=
  match nextTurn s with
  | .host => hostTurn (popTurn s)
  | .core => coreTurn (popTurn s)
  | .reset => .next (resetDevice (popTurn s))

/-- The device fetches nothing (R27): a command comes from a host write to CMD. For a word that is a
command this is the device just after that write was accepted, so that the next step performs the
command; for an illegal word it is the write about to happen, so that the next step refuses it
(log entry 4). -/
def State.withFetchWord (s : State) (nbits w : Nat) : State :=
  match decodeTableWord nbits w with
  | some d => placeAccepted d s
  | none => placeCommandWrite (BitVec.ofNat 64 (w % 2 ^ nbits)) s

end Sys2Proof.Machine
end

