-- ==== Sys2Proof/Machine/Stream.lean ====
section
/-! DEFINITION. The host's byte streams: the block reader and writer (20_memory.md R55 to R59), the
six stream operations as the results the spec gives them, and the register-level host procedure that
carries them out on the device (44_modes.md R200 to R209). A host buffer is a list of bytes. The open
parameter SHORT_ALIGN is an argument. -/
namespace Sys2Proof.Machine

/-- MemRead(buf, off, n): fewer than n bytes if the buffer ends first (R11). -/
def memRead (buf : List Byte) (off n : Nat) : List Byte := (buf.drop off).take n

/-- The reader's accumulation: multiply by 256 and add the next byte (R57). -/
def stackBytes (bs : List Byte) : Word :=
  bs.foldl (fun acc b => acc * 256 + b.setWidth 64) 0

/-- ShortPlace (R58). -/
def shortPlace (al : ShortAlign) (acc : Word) (n : Nat) : Word :=
  match al with
  | .low => acc
  | .high => acc <<< (8 * (8 - n))

/-- read_block(buf, off): the block and the number of bytes read (R57). -/
def readBlock (al : ShortAlign) (buf : List Byte) (off : Nat) : Word × Nat :=
  let bs := memRead buf off 8
  let acc := stackBytes bs
  (if bs.length < 8 then shortPlace al acc bs.length else acc, bs.length)

/-- block_to_bytes(v) (R59). -/
def blockToBytes (v : Word) : List Byte :=
  [v.extractLsb' 56 8, v.extractLsb' 48 8, v.extractLsb' 40 8, v.extractLsb' 32 8,
   v.extractLsb' 24 8, v.extractLsb' 16 8, v.extractLsb' 8 8, v.extractLsb' 0 8]

/-- The chunks of a stream, ceil(len / 8) of them, each a block and its number of bytes (R200). -/
def chunks (al : ShortAlign) (text : List Byte) : List (Word × Nat) :=
  (List.range ((text.length + 7) / 8)).map fun j => readBlock al text (8 * j)

/-- The six stream operations (R6). -/
inductive StreamOp where
  | ecbEncrypt
  | ecbDecrypt
  | cbcEncrypt
  | cbcDecrypt
  | cfbEncrypt
  | cfbDecrypt
deriving DecidableEq, Repr

/-- One block of a stream: the result y_j and the next chaining value prev_{j+1} from prev_j and x_j
(R203 to R208). ECB carries prev along unused. -/
def streamBlock (op : StreamOp) (ks : Vector RoundKey 16) (prev x : Word) : Word × Word :=
  match op with
  | .ecbEncrypt => (desE ks x, prev)
  | .ecbDecrypt => (desD ks x, prev)
  | .cbcEncrypt => (desE ks (x ^^^ prev), desE ks (x ^^^ prev))
  | .cbcDecrypt => (desD ks x ^^^ prev, x)
  | .cfbEncrypt => (desE ks prev ^^^ x, desE ks prev ^^^ x)
  | .cfbDecrypt => (desE ks prev ^^^ x, x)

/-- The result blocks y_0, y_1, … of the blocks x_0, x_1, …, from prev_0 (R203 to R207). -/
def streamBlocks (op : StreamOp) (ks : Vector RoundKey 16) (prev : Word) : List Word → List Word
  | [] => []
  | x :: xs => (streamBlock op ks prev x).1 :: streamBlocks op ks (streamBlock op ks prev x).2 xs

/-- The chaining value after the last block (R208). -/
def streamChain (op : StreamOp) (ks : Vector RoundKey 16) (prev : Word) : List Word → Word
  | [] => prev
  | x :: xs => streamChain op ks (streamBlock op ks prev x).2 xs

/-- Output assembly: the first n_j bytes of each result block, in block order (R202). -/
def assemble (lens : List Nat) (blocks : List Word) : List Byte :=
  (lens.zip blocks).flatMap fun nb => (blockToBytes nb.2).take nb.1

/-- The 64-bit key of a stream operation (R201). -/
def streamKey (al : ShortAlign) (key : List Byte) : Word := (readBlock al key 0).1

/-- The schedule a stream operation uses: that of KEYLD_RAW of its key (R201). -/
def streamSchedule (al : ShortAlign) (key : List Byte) : Vector RoundKey 16 :=
  keySchedule (permPC1 (streamKey al key))

/-- A stream operation's output (R200 to R208). The IV plays no part in the ECB operations. -/
def streamResult (op : StreamOp) (al : ShortAlign) (text key : List Byte) (iv : Word) : List Byte :=
  assemble ((chunks al text).map Prod.snd)
    (streamBlocks op (streamSchedule al key) iv ((chunks al text).map Prod.fst))

/-- ecb_encrypt(text, key) (R203). -/
def ecbEncrypt (al : ShortAlign) (text key : List Byte) : List Byte :=
  streamResult .ecbEncrypt al text key 0

/-- ecb_decrypt(text, key) (R203). -/
def ecbDecrypt (al : ShortAlign) (text key : List Byte) : List Byte :=
  streamResult .ecbDecrypt al text key 0

/-- cbc_encrypt(text, key, iv) (R204). -/
def cbcEncrypt (al : ShortAlign) (text key : List Byte) (iv : Word) : List Byte :=
  streamResult .cbcEncrypt al text key iv

/-- cbc_decrypt(text, key, iv) (R205). -/
def cbcDecrypt (al : ShortAlign) (text key : List Byte) (iv : Word) : List Byte :=
  streamResult .cbcDecrypt al text key iv

/-- cfb_encrypt(text, key, iv) (R206). -/
def cfbEncrypt (al : ShortAlign) (text key : List Byte) (iv : Word) : List Byte :=
  streamResult .cfbEncrypt al text key iv

/-- cfb_decrypt(text, key, iv) (R207). -/
def cfbDecrypt (al : ShortAlign) (text key : List Byte) (iv : Word) : List Byte :=
  streamResult .cfbDecrypt al text key iv

/-! ### The register-level procedure (R209) -/

/-- OPC of a stream operation (R209). -/
def streamCommand : StreamOp → Instr
  | .ecbEncrypt => .enc
  | .ecbDecrypt => .dec
  | .cbcEncrypt => .cbcEnc
  | .cbcDecrypt => .cbcDec
  | .cfbEncrypt => .cfbEnc
  | .cfbDecrypt => .cfbDec

/-- The operations that load the IV (R209: OPC in 0x12 to 0x15). -/
def loadsIV : StreamOp → Bool
  | .ecbEncrypt | .ecbDecrypt => false
  | .cbcEncrypt | .cbcDecrypt | .cfbEncrypt | .cfbDecrypt => true

/-- The first part of StreamOp: KEY, KEYLD_RAW, and the IV where the mode has one (R209). -/
def streamPrologue (op : StreamOp) (al : ShortAlign) (key : List Byte) (iv : Word) : List HostOp :=
  [.write .key (streamKey al key), .write .cmd (encode .keyldRaw), .wait] ++
  (if loadsIV op then [.write .chain iv] else [])

/-- The loop body of StreamOp for one block (R209). -/
def streamChunkOps (op : StreamOp) (v : Word) : List HostOp :=
  [.write .din v, .write .cmd (encode (streamCommand op)), .wait, .read .dout]

/-- The host transactions of StreamOp(OPC, text, key, iv), in order (R209). -/
def streamScript (op : StreamOp) (al : ShortAlign) (text key : List Byte) (iv : Word) :
    List HostOp :=
  streamPrologue op al key iv ++ ((chunks al text).map Prod.fst).flatMap (streamChunkOps op)

/-- What StreamOp returns: the values its reads of DOUT gave, as bytes (R209). -/
def streamOutput (al : ShortAlign) (text : List Byte) (reads : List Word) : List Byte :=
  assemble ((chunks al text).map Prod.snd) reads

end Sys2Proof.Machine
end

