-- ==== Sys2Proof/Safety.lean ====
section
/-! DEFINITION. What counts as a safe state and a safe run: the invariant of the device's own fields,
and the ends of a run. -/
namespace Sys2Proof.Machine

/-- What holds of every state a run from reset reaches. -/
structure State.Inv (s : State) : Prop where
  /-- KV = 1 only while KS holds the schedule of some key (R25) -/
  scheduleLoaded : s.kv = true → ∃ k : CompressedKey, s.ks = keySchedule k
  /-- a pending command that reads KS was accepted with KV = 1, and KV is still 1 (R220, R25) -/
  keyForPending : ∀ d, s.pend = some d → needsKV d = true → s.kv = true
  /-- ECODE is 0 exactly while ERR = 0 (R26, R230, R232, R236) -/
  errorCode : s.err = false ↔ s.ecode = .none
  /-- ERR = 1 only after an error was raised (R232) -/
  errorRaised : s.err = true → s.raised ≠ []

/-- The host has made its last transaction (R225). -/
def State.runEnded (s : State) : Bool := s.script.isEmpty

/-- The run is complete: it has ended with no command pending (R225). -/
def State.runComplete (s : State) : Bool := s.runEnded && !s.busy

/-- No error was raised: the premise R225 and R232 ask a claim about a run to state. -/
def State.errorFree (s : State) : Bool := s.raised.isEmpty

/-- The register write the host's next operation is, if it is one: a HostWrite, or a raw write access
that reaches a slot (R51, R53). -/
def nextWrite (s : State) : Option (Slot × Word) :=
  match s.script with
  | .write r v :: _ => some (r, v)
  | .bus a :: _ =>
    match busSlot a, a.value with
    | some r, some v => some (r, v)
    | _, _ => none
  | _ => none

/-- The state in which the host does op next and everything then goes on as in s. -/
def State.hostDoes (s : State) (op : HostOp) : State :=
  { s with script := op :: s.script, turns := .host :: s.turns }

/-- The state in which an event of t comes next and everything then goes on as in s. -/
def State.turnOf (s : State) (t : Turn) : State := { s with turns := t :: s.turns }

end Sys2Proof.Machine
end

