-- ==== Sys2Proof/Certificates/Slice0/Obligations.lean ====
section
/-! DEFINITION. The statements for the provers. s.hostDoes op is s with op as the host's next
operation, s.turnOf t is s with an event of t next (Safety.lean). The field raised is the ghost
record R232 asks for (log entry 13); where a statement says how it changes, that is the model's own
bookkeeping. The order of events is log entry 3. -/

open Sys2Proof Sys2Proof.Machine

/-! ### Encoding (30_encoding.md) -/

/-- The words of 95_test_vectors.md V50 and V51 decode as that table says. -/
def Obligations.DecodeSampleWords : Prop :=
  decode 0x0000000000000000 = .ok .nop ∧
  decode 0x0000000000000001 = .ok .keyldRaw ∧
  decode 0x0000000000000002 = .ok .keyldCmp ∧
  decode 0x0000000000000010 = .ok .enc ∧
  decode 0x0000000000000013 = .ok .cbcDec ∧
  decode 0x0000000000000023 = .ok .permP ∧
  decode 0x0000000000000F27 = .ok (.ffunc 15) ∧
  decode 0x0000000000000528 = .ok (.rkrd 5) ∧
  decode 0x0000000000000110 = .error .ridxNonzero ∧
  decode 0x0000000000001F28 = .error .rsvdNonzero ∧
  decode 0x8000000000000010 = .error .rsvdNonzero ∧
  decode 0x0000000000000016 = .error .unassignedOp

/-- Each command has one word and each legal word one command: R80, R81, R83, R85. -/
def Obligations.DecodeIffEncode : Prop :=
  ∀ (w : Word) (i : Instr), decode w = .ok i ↔ w = encode i

/-- R86: the three ways a word is illegal, by number, and what a write of an illegal word to CMD
does while no command is pending. -/
def Obligations.IllegalWords : Prop :=
  ∀ w : Word,
    ((∃ e, decode w = .error e) ↔
      ((0x03 ≤ w.toNat % 256 ∧ w.toNat % 256 ≤ 0x0F) ∨
       (0x16 ≤ w.toNat % 256 ∧ w.toNat % 256 ≤ 0x1F) ∨
       0x29 ≤ w.toNat % 256) ∨
      w.toNat / 2 ^ 12 ≠ 0 ∨
      (w.toNat / 2 ^ 8 % 16 ≠ 0 ∧ w.toNat % 256 ≠ 0x27 ∧ w.toNat % 256 ≠ 0x28)) ∧
    ((∃ e, decode w = .error e) →
      ∀ s : State, s.pend = none →
        step (s.hostDoes (.write .cmd w)) =
          .next { s with
            err := true
            ecode := if s.err then s.ecode else .illegalCmd
            raised := s.raised ++ [.illegalCmd] })

/-! ### Permutation engine (40_permutation_engine.md) -/

/-- PERM_IP and PERM_FP (R108, R109): output position j of DOUT is input position T[j] of DIN, and
nothing else changes but PEND. -/
def Obligations.PermIpFpResult : Prop :=
  ∀ s : State,
    (∃ t, exec .permIp s = .next t ∧ t = { s with dout := t.dout, pend := none } ∧
      ∀ j, 1 ≤ j → j ≤ 64 →
        t.dout.getLsbD (64 - j) = s.din.getLsbD (64 - tableIP.getD (j - 1) 0)) ∧
    (∃ t, exec .permFp s = .next t ∧ t = { s with dout := t.dout, pend := none } ∧
      ∀ j, 1 ≤ j → j ≤ 64 →
        t.dout.getLsbD (64 - j) = s.din.getLsbD (64 - tableFP.getD (j - 1) 0))

/-- PERM_E and PERM_P (R110, R111): the same on DIN[31:0], DOUT zero above the result. -/
def Obligations.PermEPResult : Prop :=
  ∀ s : State,
    (∃ t, exec .permE s = .next t ∧ t = { s with dout := t.dout, pend := none } ∧
      (∀ b, 48 ≤ b → t.dout.getLsbD b = false) ∧
      ∀ j, 1 ≤ j → j ≤ 48 →
        t.dout.getLsbD (48 - j) = s.din.getLsbD (32 - tableE.getD (j - 1) 0)) ∧
    (∃ t, exec .permP s = .next t ∧ t = { s with dout := t.dout, pend := none } ∧
      (∀ b, 32 ≤ b → t.dout.getLsbD b = false) ∧
      ∀ j, 1 ≤ j → j ≤ 32 →
        t.dout.getLsbD (32 - j) = s.din.getLsbD (32 - tableP.getD (j - 1) 0))

/-- PERM_PC1 and PERM_PC2 (R112, R113): from DIN and from DIN[55:0], DOUT zero above the result. -/
def Obligations.PermPc1Pc2Result : Prop :=
  ∀ s : State,
    (∃ t, exec .permPc1 s = .next t ∧ t = { s with dout := t.dout, pend := none } ∧
      (∀ b, 56 ≤ b → t.dout.getLsbD b = false) ∧
      ∀ j, 1 ≤ j → j ≤ 56 →
        t.dout.getLsbD (56 - j) = s.din.getLsbD (64 - tablePC1.getD (j - 1) 0)) ∧
    (∃ t, exec .permPc2 s = .next t ∧ t = { s with dout := t.dout, pend := none } ∧
      (∀ b, 48 ≤ b → t.dout.getLsbD b = false) ∧
      ∀ j, 1 ≤ j → j ≤ 48 →
        t.dout.getLsbD (48 - j) = s.din.getLsbD (56 - tablePC2.getD (j - 1) 0))

/-- IP and FP are inverse to each other (R114), as commands: PERM_FP of what PERM_IP gave, and the
other way round, puts DIN's first value into DOUT. -/
def Obligations.PermIpFpInverse : Prop :=
  ∀ s : State,
    (∃ t, exec .permIp s = .next t ∧
      exec .permFp { t with din := t.dout } =
        .next { s with din := t.dout, dout := s.din, pend := none }) ∧
    (∃ t, exec .permFp s = .next t ∧
      exec .permIp { t with din := t.dout } =
        .next { s with din := t.dout, dout := s.din, pend := none })

/-- Permute commutes with XOR, and with complement where every entry is a valid position (R115). -/
def Obligations.PermuteLinear : Prop :=
  ∀ (table : List Nat) (n m : Nat) (a b : BitVec n),
    permute table n m (a ^^^ b) = permute table n m a ^^^ permute table n m b ∧
    (table.length = m → (∀ p ∈ table, 1 ≤ p ∧ p ≤ n) →
      permute table n m (~~~a) = ~~~(permute table n m a))

/-- Every table has the length of its output width and entries inside its input width (R101), the
eight S-boxes are 4 × 16, and each of their rows holds 0 to 15 once (R153, R154). -/
def Obligations.TablesValid : Prop :=
  (∀ x ∈ [(tableIP, 64, 64), (tableFP, 64, 64), (tableE, 32, 48), (tableP, 32, 32),
      (tablePC1, 64, 56), (tablePC2, 56, 48)],
    x.1.length = x.2.2 ∧ ∀ p ∈ x.1, 1 ≤ p ∧ p ≤ x.2.1) ∧
  ∀ box ∈ [tableS1, tableS2, tableS3, tableS4, tableS5, tableS6, tableS7, tableS8],
    box.length = 4 ∧ ∀ row ∈ box, row.length = 16 ∧ ∀ v ∈ List.range 16, v ∈ row

/-! ### Key schedule (41_key_schedule.md) -/

/-- KEYLD_RAW (R134, R133): KS[r] is PC2 of both halves of PC1(KEY), each rotated left by the sum of
the first r+1 shifts (95_test_vectors.md V2 lists the sums); KV is set; nothing else changes but
PEND. -/
def Obligations.KeyldRawResult : Prop :=
  ∀ s : State, ∃ t, exec .keyldRaw s = .next t ∧
    t = { s with ks := t.ks, kv := true, pend := none } ∧
    ∀ r : Fin 16,
      let n := [1, 2, 4, 6, 8, 10, 12, 14, 15, 17, 19, 21, 23, 25, 27, 28].getD r 0
      let k := permPC1 s.key
      t.ks[r] =
        permPC2 ((k.extractLsb' 28 28).rotateLeft n ++ (k.extractLsb' 0 28).rotateLeft n)

/-- KEYLD_CMP (R135, R133): the same from KEY[55:0], whatever KEY[63:56] holds. -/
def Obligations.KeyldCmpResult : Prop :=
  ∀ s : State, ∃ t, exec .keyldCmp s = .next t ∧
    t = { s with ks := t.ks, kv := true, pend := none } ∧
    ∀ r : Fin 16,
      let n := [1, 2, 4, 6, 8, 10, 12, 14, 15, 17, 19, 21, 23, 25, 27, 28].getD r 0
      t.ks[r] =
        permPC2 ((s.key.extractLsb' 28 28).rotateLeft n ++ (s.key.extractLsb' 0 28).rotateLeft n)

/-- The parity bits KEY[56], KEY[48], …, KEY[0] have no effect on KEYLD_RAW, and KEYLD_CMP of the
56-bit PC1 output loads the same schedule as KEYLD_RAW of the raw key (corner cases of R134, R135). -/
def Obligations.KeyLoadsAgree : Prop :=
  ∀ (s : State) (m : Word), ∃ t,
    exec .keyldRaw s = .next t ∧
    exec .keyldRaw { s with key := s.key ^^^ (m &&& 0x0101010101010101) } =
      .next { t with key := s.key ^^^ (m &&& 0x0101010101010101) } ∧
    exec .keyldCmp { s with key := (m &&& 0xFF00000000000000) ||| (permPC1 s.key).setWidth 64 } =
      .next { t with key := (m &&& 0xFF00000000000000) ||| (permPC1 s.key).setWidth 64 }

/-- The shifts add up to one full turn (R138), so the last round key is PC2 of the key itself. -/
def Obligations.LastRoundKey : Prop :=
  ∀ k : CompressedKey, (keySchedule k)[15] = permPC2 k

/-- RKRD (R136): DOUT is KS[RIDX], zero-extended; nothing else changes but PEND. -/
def Obligations.RkrdResult : Prop :=
  ∀ (s : State) (i : Fin 16),
    exec (.rkrd i) s = .next { s with dout := (s.ks[i]).setWidth 64, pend := none }

/-! ### Round function (42_round_function.md) -/

/-- SBOX (R155, R151 to R154): nibble k of the result is the entry of S(k+1) in the row of group k's
outer bits and the column of its inner bits; DOUT is zero above; nothing else changes but PEND. -/
def Obligations.SboxResult : Prop :=
  ∀ s : State, ∃ t, exec .sbox s = .next t ∧ t = { s with dout := t.dout, pend := none } ∧
    (∀ b, 32 ≤ b → t.dout.getLsbD b = false) ∧
    ∀ k, k < 8 →
      let g := fun i => (s.din.getLsbD (47 - 6 * k - i)).toNat
      let box :=
        [tableS1, tableS2, tableS3, tableS4, tableS5, tableS6, tableS7, tableS8].getD k []
      (t.dout.extractLsb' (28 - 4 * k) 4).toNat =
        (box.getD (2 * g 0 + g 5) []).getD (8 * g 1 + 4 * g 2 + 2 * g 3 + g 4) 0

/-- FFUNC (R156, R150): expansion of DIN[31:0] by E, XOR with KS[RIDX], the eight S-boxes, then P;
DOUT is zero above; nothing else changes but PEND. -/
def Obligations.FfuncResult : Prop :=
  ∀ (s : State) (i : Fin 16), ∃ (t : State) (x : BitVec 48) (y : BitVec 32),
    exec (.ffunc i) s = .next t ∧ t = { s with dout := t.dout, pend := none } ∧
    (∀ b, 32 ≤ b → t.dout.getLsbD b = false) ∧
    (∀ j, 1 ≤ j → j ≤ 48 →
      x.getLsbD (48 - j) =
        (s.din.getLsbD (32 - tableE.getD (j - 1) 0) ^^ (s.ks[i]).getLsbD (48 - j))) ∧
    (∀ k, k < 8 →
      let g := fun i => (x.getLsbD (47 - 6 * k - i)).toNat
      let box :=
        [tableS1, tableS2, tableS3, tableS4, tableS5, tableS6, tableS7, tableS8].getD k []
      (y.extractLsb' (28 - 4 * k) 4).toNat =
        (box.getD (2 * g 0 + g 5) []).getD (8 * g 1 + 4 * g 2 + 2 * g 3 + g 4) 0) ∧
    ∀ j, 1 ≤ j → j ≤ 32 →
      t.dout.getLsbD (32 - j) = y.getLsbD (32 - tableP.getD (j - 1) 0)

/-- f is unchanged when both of its inputs are complemented (corner case of R156). -/
def Obligations.RoundComplement : Prop :=
  ∀ (r : Half) (k : RoundKey), roundF (~~~r) (~~~k) = roundF r k

/-! ### Block cipher (43_block_cipher.md) -/

/-- ENC and DEC (R174, R175), in the form of R181: the halves of IP(DIN) go through 16 rounds that
all swap, L(j+1) = R(j) and R(j+1) = L(j) ^ f(R(j), K[j+1]), with K[j+1] = KS[j] for ENC and
KS[15-j] for DEC, and DOUT is FP(R(16) ‖ L(16)); nothing else changes but PEND. -/
def Obligations.EncDecResult : Prop :=
  ∀ s : State,
    (∃ (t : State) (l r : Nat → Half), exec .enc s = .next t ∧
      t = { s with dout := t.dout, pend := none } ∧
      l 0 ++ r 0 = permIP s.din ∧
      (∀ j : Fin 16, l (j + 1) = r j ∧ r (j + 1) = l j ^^^ roundF (r j) s.ks[j]) ∧
      t.dout = permFP (r 16 ++ l 16)) ∧
    (∃ (t : State) (l r : Nat → Half), exec .dec s = .next t ∧
      t = { s with dout := t.dout, pend := none } ∧
      l 0 ++ r 0 = permIP s.din ∧
      (∀ j : Fin 16, l (j + 1) = r j ∧ r (j + 1) = l j ^^^ roundF (r j) s.ks[15 - j.val]) ∧
      t.dout = permFP (r 16 ++ l 16))

/-- R177: DEC undoes ENC and ENC undoes DEC, under whatever KS holds. -/
def Obligations.EncDecRoundTrip : Prop :=
  ∀ s : State,
    (∃ t, exec .enc s = .next t ∧
      exec .dec { t with din := t.dout } =
        .next { s with din := t.dout, dout := s.din, pend := none }) ∧
    (∃ t, exec .dec s = .next t ∧
      exec .enc { t with din := t.dout } =
        .next { s with din := t.dout, dout := s.din, pend := none })

/-- R179: with the raw key and the block both complemented, the ciphertext is complemented. -/
def Obligations.Complementation : Prop :=
  ∀ s : State, ∃ a b c d : State,
    exec .keyldRaw s = .next a ∧ exec .enc a = .next b ∧
    exec .keyldRaw { s with key := ~~~s.key, din := ~~~s.din } = .next c ∧
    exec .enc c = .next d ∧
    d.dout = ~~~b.dout

/-- R180: if all 16 round keys are equal, DEC does what ENC does, and ENC twice gives the block
back. -/
def Obligations.EqualRoundKeys : Prop :=
  ∀ (s : State) (k : RoundKey), (∀ i : Fin 16, s.ks[i] = k) →
    ∃ t, exec .enc s = .next t ∧ exec .dec s = .next t ∧
      exec .enc { t with din := t.dout } =
        .next { s with din := t.dout, dout := s.din, pend := none }

/-- R182: what ENC and DEC put into DOUT depends on DIN and KS alone. -/
def Obligations.CipherDependsOnDinAndKs : Prop :=
  ∀ s s' : State, s.din = s'.din → s.ks = s'.ks →
    ∃ t t' u u', exec .enc s = .next t ∧ exec .enc s' = .next t' ∧ t.dout = t'.dout ∧
      exec .dec s = .next u ∧ exec .dec s' = .next u' ∧ u.dout = u'.dout

/-! ### Chaining commands (44_modes.md) -/

/-- CBC_ENC and CBC_DEC (R190, R191) in terms of ENC of DIN ^ CHAIN and DEC of DIN: what goes to
DOUT and to CHAIN; nothing else changes but PEND. -/
def Obligations.CbcResult : Prop :=
  ∀ s : State,
    (∃ t, exec .enc { s with din := s.din ^^^ s.chain } = .next t ∧
      exec .cbcEnc s = .next { s with dout := t.dout, chain := t.dout, pend := none }) ∧
    (∃ t, exec .dec s = .next t ∧
      exec .cbcDec s = .next { s with dout := t.dout ^^^ s.chain, chain := s.din, pend := none })

/-- CFB_ENC and CFB_DEC (R192, R193): the keystream is ENC of CHAIN for both, and they differ only in
what they write to CHAIN; nothing else changes but PEND. -/
def Obligations.CfbResult : Prop :=
  ∀ s : State, ∃ t, exec .enc { s with din := s.chain } = .next t ∧
    exec .cfbEnc s =
      .next { s with dout := t.dout ^^^ s.din, chain := t.dout ^^^ s.din, pend := none } ∧
    exec .cfbDec s = .next { s with dout := t.dout ^^^ s.din, chain := s.din, pend := none }

/-- One block of CBC and of CFB comes back when it is decrypted with the chaining value it was
encrypted with, and both directions leave the same CHAIN (R190 to R193, R177). -/
def Obligations.ChainedBlockRoundTrip : Prop :=
  ∀ s : State,
    (∃ t, exec .cbcEnc s = .next t ∧
      exec .cbcDec { t with din := t.dout, chain := s.chain } =
        .next { t with din := t.dout, dout := s.din }) ∧
    (∃ t, exec .cfbEnc s = .next t ∧
      exec .cfbDec { t with din := t.dout, chain := s.chain } =
        .next { t with din := t.dout, dout := s.din })

/-! ### Byte streams (20_memory.md, 44_modes.md) -/

/-- The reader undoes the writer (R59), and the bytes of a buffer of at most 8 bytes are the last
bytes of its block under LOW and the first under HIGH, zeros elsewhere (R55 to R58). -/
def Obligations.BlockReaderWriter : Prop :=
  (∀ (al : ShortAlign) (v : Word), readBlock al (blockToBytes v) 0 = (v, 8)) ∧
  ∀ bs : List Byte, bs.length ≤ 8 →
    readBlock .low bs 0 = ((readBlock .low bs 0).1, bs.length) ∧
    readBlock .high bs 0 = ((readBlock .high bs 0).1, bs.length) ∧
    blockToBytes (readBlock .low bs 0).1 = List.replicate (8 - bs.length) 0 ++ bs ∧
    blockToBytes (readBlock .high bs 0).1 = bs ++ List.replicate (8 - bs.length) 0

/-- R211: every stream operation returns as many bytes as it is given. -/
def Obligations.StreamLength : Prop :=
  ∀ (op : StreamOp) (al : ShortAlign) (text key : List Byte) (iv : Word),
    (streamResult op al text key iv).length = text.length

/-- R212: a text of whole blocks comes back, in each mode, under either SHORT_ALIGN. -/
def Obligations.StreamRoundTrip : Prop :=
  ∀ (al : ShortAlign) (text key : List Byte) (iv : Word), text.length % 8 = 0 →
    ecbDecrypt al (ecbEncrypt al text key) key = text ∧
    cbcDecrypt al (cbcEncrypt al text key iv) key iv = text ∧
    cfbDecrypt al (cfbEncrypt al text key iv) key iv = text

/-- R213: under one key, equal whole plaintext chunks give equal ECB ciphertext chunks, wherever they
stand. -/
def Obligations.EcbDeterminism : Prop :=
  ∀ (al : ShortAlign) (text text' key : List Byte) (i j : Nat),
    8 * i + 8 ≤ text.length → 8 * j + 8 ≤ text'.length →
    memRead text (8 * i) 8 = memRead text' (8 * j) 8 →
    memRead (ecbEncrypt al text key) (8 * i) 8 = memRead (ecbEncrypt al text' key) (8 * j) 8

/-- R214: the IV a CBC or CFB ciphertext is decrypted with has no effect past the first block. -/
def Obligations.WrongIvFirstBlockOnly : Prop :=
  ∀ (al : ShortAlign) (text key : List Byte) (iv iv' : Word),
    (cbcDecrypt al text key iv).drop 8 = (cbcDecrypt al text key iv').drop 8 ∧
    (cfbDecrypt al text key iv).drop 8 = (cfbDecrypt al text key iv').drop 8

/-- R216: a change inside chunk i of the input changes no chunk but i of an ECB encryption, and no
chunk but i and i+1 of a CBC or CFB decryption. -/
def Obligations.ChangeStaysLocal : Prop :=
  ∀ (al : ShortAlign) (text text' key : List Byte) (iv : Word) (i : Nat),
    text.length = text'.length →
    (∀ j, j ≠ i → memRead text (8 * j) 8 = memRead text' (8 * j) 8) →
    ∀ j, j ≠ i →
      memRead (ecbEncrypt al text key) (8 * j) 8 = memRead (ecbEncrypt al text' key) (8 * j) 8 ∧
      (j ≠ i + 1 →
        memRead (cbcDecrypt al text key iv) (8 * j) 8 =
          memRead (cbcDecrypt al text' key iv) (8 * j) 8 ∧
        memRead (cfbDecrypt al text key iv) (8 * j) 8 =
          memRead (cfbDecrypt al text' key iv) (8 * j) 8)

/-- R209: from a device with no command pending, under every order of events without a reset, the
register-level procedure comes to its end with no error raised, and what its reads of DOUT gave is
the stream operation's result; CHAIN is left at the last chaining value by a chaining operation and
unchanged by an ECB operation (R208). The order of events is the model's (log entry 3). -/
def Obligations.StreamProcedureOnDevice : Prop :=
  ∀ (op : StreamOp) (al : ShortAlign) (text key : List Byte) (iv : Word) (s : State),
    s.pend = none → s.script = streamScript op al text key iv →
    (∀ t ∈ s.turns, t ≠ Turn.reset) →
    ∃ (n : Nat) (t : State) (ys : List Word),
      Host.Core.run Sys2Proof.core n s = .next t ∧
      t.script = [] ∧ t.pend = none ∧ t.kv = true ∧
      t.err = s.err ∧ t.ecode = s.ecode ∧ t.raised = s.raised ∧
      t.reads = s.reads ++ ys ∧
      streamOutput al text ys = streamResult op al text key iv ∧
      t.chain =
        (if loadsIV op then
          streamChain op (streamSchedule al key) iv ((chunks al text).map Prod.fst)
        else s.chain)

/-! ### Register transactions (10_state.md, 20_memory.md) -/

/-- R52: what a read of each slot returns, and that the host receiving it is all that happens. -/
def Obligations.HostReadValues : Prop :=
  ∀ s : State,
    let got := fun v : Word => Host.Outcome.next { s with reads := s.reads ++ [v] }
    let code := match s.ecode with
      | .none => 0 | .illegalCmd => 1 | .noKey => 2 | .busyWrite => 3 | .badWrite => 4
    step (s.hostDoes (.read .cmd)) = got 0 ∧
    step (s.hostDoes (.read .status)) =
      got (BitVec.ofNat 64
        (16 * code + 4 * s.err.toNat + 2 * s.kv.toNat + (if s.pend = none then 0 else 1))) ∧
    step (s.hostDoes (.read .key)) = got s.key ∧
    step (s.hostDoes (.read .din)) = got s.din ∧
    step (s.hostDoes (.read .dout)) = got s.dout ∧
    step (s.hostDoes (.read .chain)) = got s.chain ∧
    step (s.hostDoes (.read .reserved6)) = got 0 ∧
    step (s.hostDoes (.read .reserved7)) = got 0

/-- R24: the BUSY bit of STATUS reads 1 exactly while a command is pending. -/
def Obligations.BusyIsPending : Prop :=
  ∀ s : State, (hostRead .status s).getLsbD 0 = true ↔ s.pend ≠ none

/-- R53: what a write of each slot does; a write of CMD is one IssueCommand. -/
def Obligations.HostWriteEffects : Prop :=
  ∀ (s : State) (v : Word),
    let refused := fun e : ErrCode => Host.Outcome.next
      { s with
        err := true, ecode := if s.err then s.ecode else e, raised := s.raised ++ [e] }
    step (s.hostDoes (.write .cmd v)) = .next (issueCommand v s) ∧
    step (s.hostDoes (.write .status v)) =
      .next (if v.getLsbD 2 then { s with err := false, ecode := .none } else s) ∧
    step (s.hostDoes (.write .key v)) =
      (if s.pend = none then .next { s with key := v } else refused .busyWrite) ∧
    step (s.hostDoes (.write .din v)) =
      (if s.pend = none then .next { s with din := v } else refused .busyWrite) ∧
    step (s.hostDoes (.write .chain v)) =
      (if s.pend = none then .next { s with chain := v } else refused .busyWrite) ∧
    step (s.hostDoes (.write .dout v)) = refused .badWrite ∧
    step (s.hostDoes (.write .reserved6 v)) = refused .badWrite ∧
    step (s.hostDoes (.write .reserved7 v)) = refused .badWrite

/-- R33: the reserved slots read 0, and a write of one is refused with BAD_WRITE and changes nothing
else. -/
def Obligations.ReservedSlots : Prop :=
  ∀ (s : State) (v : Word), ∀ r ∈ [Slot.reserved6, Slot.reserved7],
    step (s.hostDoes (.read r)) = .next { s with reads := s.reads ++ [0] } ∧
    step (s.hostDoes (.write r v)) =
      .next { s with
        err := true
        ecode := if s.err then s.ecode else .badWrite
        raised := s.raised ++ [.badWrite] }

/-- R51: a raw access of 64 bits at byte offset 8·i, i in 0..7, is the transaction on slot i; every
other raw access is refused. -/
def Obligations.BusAccesses : Prop :=
  ∀ (s : State) (a : BusAccess),
    (∀ r : Slot, a.width = 64 → a.offset = 8 * r.index.val →
      step (s.hostDoes (.bus a)) =
        step (s.hostDoes (match a.value with | some v => .write r v | none => .read r))) ∧
    (¬(a.width = 64 ∧ ∃ i : Fin 8, a.offset = 8 * i.val) →
      step (s.hostDoes (.bus a)) = .refused (.busAccess a.offset a.width))

/-! ### The life of a command (45_control.md) -/

/-- R220: the checks of a CMD write in their order, and the acceptance. -/
def Obligations.IssueChecks : Prop :=
  ∀ (s : State) (w : Word),
    let refused := fun e : ErrCode => Host.Outcome.next
      { s with
        err := true, ecode := if s.err then s.ecode else e, raised := s.raised ++ [e] }
    let readsKS := fun d : Instr =>
      d ∈ [Instr.enc, .dec, .cbcEnc, .cbcDec, .cfbEnc, .cfbDec] ∨
      ∃ i : Fin 16, d = .ffunc i ∨ d = .rkrd i
    (s.pend ≠ none → step (s.hostDoes (.write .cmd w)) = refused .busyWrite) ∧
    (s.pend = none → (∃ e, decode w = .error e) →
      step (s.hostDoes (.write .cmd w)) = refused .illegalCmd) ∧
    (∀ d, s.pend = none → decode w = .ok d → readsKS d → s.kv = false →
      step (s.hostDoes (.write .cmd w)) = refused .noKey) ∧
    (∀ d, s.pend = none → decode w = .ok d → (readsKS d → s.kv = true) →
      step (s.hostDoes (.write .cmd w)) = .next { s with pend := some d })

/-- A step runs the decoded command: the word written to CMD is accepted in one step, and the core's
next step performs exactly the command it decodes to (R85, R220, R221). That the pending command is
the next event where no turns are listed, the clause under s.turns = [], is the model's choice of the
order of events (log entry 3), not a rule. -/
def Obligations.StepRunsDecoded : Prop :=
  ∀ (s : State) (w : Word) (d : Instr),
    decode w = .ok d → s.pend = none → (needsKV d = true → s.kv = true) →
    step ((s.turnOf .core).hostDoes (.write .cmd w)) =
        .next ((State.turnOf { s with pend := some d } .core)) ∧
    step (State.turnOf { s with pend := some d } .core) = exec d { s with pend := some d } ∧
    (s.turns = [] →
      step (s.hostDoes (.write .cmd w)) = .next { s with pend := some d } ∧
      step { s with pend := some d } = exec d { s with pend := some d })

/-- The core's turn performs the pending command, whichever it is (R221), and never changes the error
record (R231). With none pending R221 gives the core no step; that a turn listed for it then passes
with nothing changed, the first clause, is the model's choice (log entry 16). -/
def Obligations.CoreTurn : Prop :=
  ∀ s : State,
    (s.pend = none → step (s.turnOf .core) = .next s) ∧
    ∀ d, s.pend = some d →
      step (s.turnOf .core) = exec d s ∧
      ∀ t, step (s.turnOf .core) = .next t →
        t.err = s.err ∧ t.ecode = s.ecode ∧ t.raised = s.raised

/-- Every command completes from every state, and writes no more than R40's table says: PEND is none
afterwards; KEY, DIN and the error record are unchanged; DOUT is unchanged by NOP, KEYLD_RAW and
KEYLD_CMP; CHAIN by all but the four chaining commands; KS and KV by all but the two key loads. -/
def Obligations.EveryCommandCompletes : Prop :=
  ∀ (d : Instr) (s : State), ∃ t, exec d s = .next t ∧
    t = { s with dout := t.dout, chain := t.chain, ks := t.ks, kv := t.kv, pend := none } ∧
    (d ∈ [Instr.nop, .keyldRaw, .keyldCmp] → t.dout = s.dout) ∧
    (d ∉ [Instr.cbcEnc, .cbcDec, .cfbEnc, .cfbDec] → t.chain = s.chain) ∧
    (d ∉ [Instr.keyldRaw, .keyldCmp] → t.ks = s.ks ∧ t.kv = s.kv)

/-- NOP (R222): BUSY goes to 1 at issue and back to 0 at completion, nothing else changes, no key is
needed; from reset, a NOP and a WAIT leave the reset state. That this last run takes three steps, and
that the completion comes before the WAIT's read with no turns listed, is the model's choice of the
order of events (log entry 3). -/
def Obligations.NopPulse : Prop :=
  (∀ s : State, s.pend = none →
    step ((s.turnOf .core).hostDoes (.write .cmd 0)) =
        .next (State.turnOf { s with pend := some .nop } .core) ∧
    exec .nop { s with pend := some .nop } = .next s ∧
    step (State.turnOf { s with pend := some .nop } .core) = .next s) ∧
  Host.Core.run Sys2Proof.core 3 { State.reset with script := [.write .cmd 0, .wait] } =
    .next State.reset

/-- R266, R224, R63: where no reset comes and every raw access of the host is a whole register, the
pending command completes within one step more than the turns still listed, and its results are
those of performing it now, whatever the host does in between. The bound is the model's (log
entry 3). -/
def Obligations.PendingCompletes : Prop :=
  ∀ (s r : State) (d : Instr),
    s.pend = some d → exec d s = .next r →
    (∀ t ∈ s.turns, t ≠ Turn.reset) →
    (∀ a, HostOp.bus a ∈ s.script → a.wellFormed = true) →
    ∃ (n : Nat) (t : State), n ≤ s.turns.length + 1 ∧
      Host.Core.run Sys2Proof.core n s = .next t ∧
      t.pend = none ∧ t.key = s.key ∧ t.din = s.din ∧
      t.dout = r.dout ∧ t.chain = r.chain ∧ t.ks = r.ks ∧ t.kv = r.kv

/-- R265, R224: while a command is pending, the host's turn changes none of KEY, DIN, DOUT, CHAIN,
KS, KV and PEND. -/
def Obligations.PendingProtected : Prop :=
  ∀ (s t : State) (d : Instr), s.pend = some d → nextTurn s = .host → step s = .next t →
    t = { s with
      err := t.err, ecode := t.ecode, script := t.script, turns := t.turns,
      reads := t.reads, raised := t.raised }

/-- R234: a host write at "the same time" as a completion comes before it, and is refused with
BUSY_WRITE while the command still completes, or after it, and is accepted. -/
def Obligations.WriteRacesCompletion : Prop :=
  ∀ (s r : State) (d : Instr) (v : Word), s.pend = some d → exec d s = .next r →
    let refused := fun x : State =>
      { x with
        err := true
        ecode := if s.err then s.ecode else .busyWrite
        raised := s.raised ++ [.busyWrite] }
    let coreFirst := fun x : Slot => (s.hostDoes (.write x v)).turnOf .core
    (∀ x ∈ [Slot.cmd, .key, .din, .chain],
      Host.Core.run Sys2Proof.core 2 ((s.turnOf .core).hostDoes (.write x v)) =
        .next (refused r)) ∧
    Host.Core.run Sys2Proof.core 2 (coreFirst .key) = .next { r with key := v } ∧
    Host.Core.run Sys2Proof.core 2 (coreFirst .din) = .next { r with din := v } ∧
    Host.Core.run Sys2Proof.core 2 (coreFirst .chain) = .next { r with chain := v } ∧
    ∀ d', decode v = .ok d' → (needsKV d' = true → r.kv = true) →
      Host.Core.run Sys2Proof.core 2 (coreFirst .cmd) = .next { r with pend := some d' }

/-! ### Which events change what (10_state.md) -/

/-- R25, R262: KV is cleared only by a reset, and set only by the completion of KEYLD_RAW or
KEYLD_CMP. -/
def Obligations.KvChanges : Prop :=
  ∀ s t : State, step s = .next t →
    (s.kv = true → t.kv = false → nextTurn s = .reset) ∧
    (s.kv = false → t.kv = true →
      nextTurn s = .core ∧ (s.pend = some .keyldRaw ∨ s.pend = some .keyldCmp))

/-- R34, R66: KS changes only at a reset or at the completion of KEYLD_RAW or KEYLD_CMP, which
replaces it by the schedule of KEY's value; no write of KEY changes it. -/
def Obligations.KsChanges : Prop :=
  ∀ s t : State, step s = .next t →
    t.ks = s.ks ∨ nextTurn s = .reset ∨
    (nextTurn s = .core ∧ s.pend = some .keyldRaw ∧ t.ks = keySchedule (permPC1 s.key)) ∨
    (nextTurn s = .core ∧ s.pend = some .keyldCmp ∧
      t.ks = keySchedule (s.key.extractLsb' 0 56))

/-- R31, R32, R40: but for a reset, DOUT changes only at the completion of a command that has a
result, and CHAIN only at the completion of a chaining command or by a host write of CHAIN while no
command is pending. -/
def Obligations.DoutChainChanges : Prop :=
  ∀ s t : State, step s = .next t → nextTurn s ≠ .reset →
    (t.dout ≠ s.dout → nextTurn s = .core ∧ ∃ d, s.pend = some d ∧
      d ∉ [Instr.nop, .keyldRaw, .keyldCmp]) ∧
    (t.chain ≠ s.chain →
      (nextTurn s = .core ∧ ∃ d ∈ [Instr.cbcEnc, .cbcDec, .cfbEnc, .cfbDec], s.pend = some d) ∨
      (nextTurn s = .host ∧ s.pend = none ∧ nextWrite s = some (.chain, t.chain)))

/-- R29, R30: the core never writes KEY or DIN; but for a reset, each changes only by a host write of
it while no command is pending. -/
def Obligations.KeyDinChanges : Prop :=
  ∀ s t : State, step s = .next t → nextTurn s ≠ .reset →
    (t.key ≠ s.key →
      nextTurn s = .host ∧ s.pend = none ∧ nextWrite s = some (.key, t.key)) ∧
    (t.din ≠ s.din →
      nextTurn s = .host ∧ s.pend = none ∧ nextWrite s = some (.din, t.din))

/-! ### Errors (60_exceptions.md) -/

/-- R232: an event that raises an error is a host write; the first error since the last clear is
kept in ERR and ECODE, and nothing else of the device changes. -/
def Obligations.RaiseEffect : Prop :=
  ∀ s t : State, step s = .next t → t.raised ≠ s.raised →
    nextTurn s = .host ∧ nextWrite s ≠ none ∧
    ∃ e, e ≠ ErrCode.none ∧
      t = { s with
        err := true, ecode := if s.err then s.ecode else e, raised := s.raised ++ [e],
        script := s.script.tail, turns := s.turns.tail }

/-- R26, R237: while ERR = 1, an event either leaves ERR and ECODE as they are, or clears both; only
a host write of STATUS with bit 2 set and a reset clear them. -/
def Obligations.ErrorRecordSticky : Prop :=
  ∀ s t : State, step s = .next t → s.err = true →
    (t.err = true ∧ t.ecode = s.ecode) ∨
    (t.err = false ∧ t.ecode = .none ∧
      (nextTurn s = .reset ∨
        (nextTurn s = .host ∧
          ∃ v : Word, v.getLsbD 2 = true ∧ nextWrite s = some (.status, v))))

/-- R236: a STATUS write with bit 2 set clears ERR and ECODE and restores nothing else, also while a
command is pending. An error raised after the clear is recorded afresh: each of the four errors, by
every write that raises it, as the event right after the clear; and, with whatever comes between, any
error raised by an event while ERR = 0. -/
def Obligations.ClearAndRecordAfresh : Prop :=
  ∀ (s : State) (v : Word), v.getLsbD 2 = true →
    let recorded := fun e : ErrCode => Host.Outcome.next
      { s with err := true, ecode := e, raised := s.raised ++ [e] }
    let clearThenWrite := fun (r : Slot) (w : Word) =>
      Host.Core.run Sys2Proof.core 2 ((s.hostDoes (.write r w)).hostDoes (.write .status v))
    step (s.hostDoes (.write .status v)) = .next { s with err := false, ecode := .none } ∧
    (∀ (r : Slot) (w : Word), r ∈ [Slot.dout, .reserved6, .reserved7] →
      clearThenWrite r w = recorded .badWrite) ∧
    (∀ (r : Slot) (w : Word), s.pend ≠ none → r ∈ [Slot.cmd, .key, .din, .chain] →
      clearThenWrite r w = recorded .busyWrite) ∧
    (∀ w : Word, s.pend = none → (∃ e, decode w = .error e) →
      clearThenWrite .cmd w = recorded .illegalCmd) ∧
    (∀ (w : Word) (d : Instr), s.pend = none → decode w = .ok d → needsKV d = true →
      s.kv = false → clearThenWrite .cmd w = recorded .noKey) ∧
    ∀ u t : State, u.err = false → step u = .next t → t.raised ≠ u.raised →
      ∃ e, e ≠ ErrCode.none ∧ t.err = true ∧ t.ecode = e ∧ t.raised = u.raised ++ [e]

/-! ### Reset and idleness (60_exceptions.md, 70_reset_and_hazards.md) -/

/-- R260: reset sets every field of the device but KS to the value the spec gives, aborting a pending
command (R261); STATUS and every other slot then read 0. What KS holds is left open. The host's
program, what it has read and the ghost record stay: the model's choice (log entry 6). -/
def Obligations.ResetEffect : Prop :=
  ∀ s : State, ∃ t, step (s.turnOf .reset) = .next t ∧
    t = { s with
      key := 0, din := 0, dout := 0, chain := 0, ks := t.ks, kv := false, err := false,
      ecode := .none, pend := none, resets := t.resets } ∧
    ∀ r : Slot, hostRead r t = 0

/-- R245: with no command pending, an event that is neither a host write nor a reset keeps every
register and all other state of the device. -/
def Obligations.IdleKeepsState : Prop :=
  ∀ s t : State, s.pend = none → nextTurn s ≠ .reset →
    (nextTurn s = .host → nextWrite s = none) → step s = .next t →
    t = { s with script := t.script, turns := t.turns, reads := t.reads }

/-- R262: while KV = 0 and no pending command reads KS, what KS holds cannot be observed: two devices
that differ only in KS still differ at most in KS after the same event, and not at all once KV = 1.
That a reset draws the same KS for both is the model's free value (log entry 2). -/
def Obligations.KsUnobservable : Prop :=
  ∀ (s t : State) (ks' : Vector RoundKey 16),
    s.kv = false → (∀ d, s.pend = some d → needsKV d = false) → step s = .next t →
    ∃ t', step { s with ks := ks' } = .next t' ∧
      (t' = t ∨ (t.kv = false ∧ t' = { t with ks := ks' }))

/-! ### The invariant -/

/-- Inv (Safety.lean) holds at reset, where KS is the model's choice (log entry 1) and plays no
part. -/
def Obligations.InvAtReset : Prop := State.reset.Inv

/-- Every step from a state with Inv gives a state with Inv: KV = 1 only with a schedule loaded
(R25), a pending reader of KS only with KV = 1 (R220), ECODE 0 exactly while ERR = 0 (R232, R236). -/
def Obligations.InvKept : Prop :=
  ∀ s t : State, s.Inv → step s = .next t → t.Inv
end

