-- ==== Sys2Proof/Laws/BlockCipher.lean ====
section
/-! SUPPORT. Halves of a block, and the rounds one at a time. -/
namespace Sys2Proof.Machine

/-- The upper half of a block joined from two halves. -/
theorem upper_join (a b : Half) : (a ++ b : Word).extractLsb' 32 32 = a := by
  apply BitVec.eq_of_getLsbD_eq
  intro i hi
  rw [BitVec.getLsbD_extractLsb']
  erw [BitVec.getLsbD_append]
  simp [hi]

/-- The lower half of a block joined from two halves. -/
theorem lower_join (a b : Half) : (a ++ b : Word).extractLsb' 0 32 = b := by
  apply BitVec.eq_of_getLsbD_eq
  intro i hi
  rw [BitVec.getLsbD_extractLsb']
  erw [BitVec.getLsbD_append]
  simp [hi]

/-- A block is its two halves joined. -/
theorem join_halves (t : Word) : (t.extractLsb' 32 32 ++ t.extractLsb' 0 32 : Word) = t := by
  apply BitVec.eq_of_getLsbD_eq
  intro i hi
  erw [BitVec.getLsbD_append]
  by_cases h : i < 32
  · simp [h]
  · have h2 : i - 32 < 32 := by omega
    have h3 : 32 + (i - 32) = i := by omega
    simp [h, h2, h3]

/-- The last round does not swap (R172). -/
theorem feistelRounds_last (k : RoundKey) (lr : Half × Half) :
    feistelRounds [k] lr = (lr.1 ^^^ roundF lr.2 k, lr.2) := rfl

/-- Every round before the last swaps (R172). -/
theorem feistelRounds_swap (k : RoundKey) (ks : List RoundKey) (h : ks ≠ []) (lr : Half × Half) :
    feistelRounds (k :: ks) lr = feistelRounds ks (lr.2, lr.1 ^^^ roundF lr.2 k) := by
  cases ks with
  | nil => exact absurd rfl h
  | cons k' ks => rfl

end Sys2Proof.Machine
end

