-- ==== Sys2Proof/Laws/State.lean ====
section
/-! SUPPORT. What each named update of the state does to each field, one lemma per field and update,
true by rfl. -/
namespace Sys2Proof.Machine

variable (s : State)

/-! complete -/
@[simp] theorem complete_key : (complete s).key = s.key := rfl
@[simp] theorem complete_din : (complete s).din = s.din := rfl
@[simp] theorem complete_dout : (complete s).dout = s.dout := rfl
@[simp] theorem complete_chain : (complete s).chain = s.chain := rfl
@[simp] theorem complete_ks : (complete s).ks = s.ks := rfl
@[simp] theorem complete_kv : (complete s).kv = s.kv := rfl
@[simp] theorem complete_err : (complete s).err = s.err := rfl
@[simp] theorem complete_ecode : (complete s).ecode = s.ecode := rfl
@[simp] theorem complete_pend : (complete s).pend = none := rfl
@[simp] theorem complete_script : (complete s).script = s.script := rfl
@[simp] theorem complete_turns : (complete s).turns = s.turns := rfl
@[simp] theorem complete_reads : (complete s).reads = s.reads := rfl
@[simp] theorem complete_raised : (complete s).raised = s.raised := rfl
@[simp] theorem complete_resets : (complete s).resets = s.resets := rfl

/-! putDout -/
@[simp] theorem putDout_key (v : Word) : (putDout v s).key = s.key := rfl
@[simp] theorem putDout_din (v : Word) : (putDout v s).din = s.din := rfl
@[simp] theorem putDout_dout (v : Word) : (putDout v s).dout = v := rfl
@[simp] theorem putDout_chain (v : Word) : (putDout v s).chain = s.chain := rfl
@[simp] theorem putDout_ks (v : Word) : (putDout v s).ks = s.ks := rfl
@[simp] theorem putDout_kv (v : Word) : (putDout v s).kv = s.kv := rfl
@[simp] theorem putDout_err (v : Word) : (putDout v s).err = s.err := rfl
@[simp] theorem putDout_ecode (v : Word) : (putDout v s).ecode = s.ecode := rfl
@[simp] theorem putDout_pend (v : Word) : (putDout v s).pend = s.pend := rfl
@[simp] theorem putDout_script (v : Word) : (putDout v s).script = s.script := rfl
@[simp] theorem putDout_turns (v : Word) : (putDout v s).turns = s.turns := rfl
@[simp] theorem putDout_reads (v : Word) : (putDout v s).reads = s.reads := rfl
@[simp] theorem putDout_raised (v : Word) : (putDout v s).raised = s.raised := rfl
@[simp] theorem putDout_resets (v : Word) : (putDout v s).resets = s.resets := rfl

/-! putChain -/
@[simp] theorem putChain_key (v : Word) : (putChain v s).key = s.key := rfl
@[simp] theorem putChain_din (v : Word) : (putChain v s).din = s.din := rfl
@[simp] theorem putChain_dout (v : Word) : (putChain v s).dout = s.dout := rfl
@[simp] theorem putChain_chain (v : Word) : (putChain v s).chain = v := rfl
@[simp] theorem putChain_ks (v : Word) : (putChain v s).ks = s.ks := rfl
@[simp] theorem putChain_kv (v : Word) : (putChain v s).kv = s.kv := rfl
@[simp] theorem putChain_err (v : Word) : (putChain v s).err = s.err := rfl
@[simp] theorem putChain_ecode (v : Word) : (putChain v s).ecode = s.ecode := rfl
@[simp] theorem putChain_pend (v : Word) : (putChain v s).pend = s.pend := rfl
@[simp] theorem putChain_script (v : Word) : (putChain v s).script = s.script := rfl
@[simp] theorem putChain_turns (v : Word) : (putChain v s).turns = s.turns := rfl
@[simp] theorem putChain_reads (v : Word) : (putChain v s).reads = s.reads := rfl
@[simp] theorem putChain_raised (v : Word) : (putChain v s).raised = s.raised := rfl
@[simp] theorem putChain_resets (v : Word) : (putChain v s).resets = s.resets := rfl

/-! loadSchedule -/
@[simp] theorem loadSchedule_key (rk : Vector RoundKey 16) : (loadSchedule rk s).key = s.key := rfl
@[simp] theorem loadSchedule_din (rk : Vector RoundKey 16) : (loadSchedule rk s).din = s.din := rfl
@[simp] theorem loadSchedule_dout (rk : Vector RoundKey 16) : (loadSchedule rk s).dout = s.dout := rfl
@[simp] theorem loadSchedule_chain (rk : Vector RoundKey 16) : (loadSchedule rk s).chain = s.chain := rfl
@[simp] theorem loadSchedule_ks (rk : Vector RoundKey 16) : (loadSchedule rk s).ks = rk := rfl
@[simp] theorem loadSchedule_kv (rk : Vector RoundKey 16) : (loadSchedule rk s).kv = true := rfl
@[simp] theorem loadSchedule_err (rk : Vector RoundKey 16) : (loadSchedule rk s).err = s.err := rfl
@[simp] theorem loadSchedule_ecode (rk : Vector RoundKey 16) : (loadSchedule rk s).ecode = s.ecode := rfl
@[simp] theorem loadSchedule_pend (rk : Vector RoundKey 16) : (loadSchedule rk s).pend = s.pend := rfl
@[simp] theorem loadSchedule_script (rk : Vector RoundKey 16) : (loadSchedule rk s).script = s.script := rfl
@[simp] theorem loadSchedule_turns (rk : Vector RoundKey 16) : (loadSchedule rk s).turns = s.turns := rfl
@[simp] theorem loadSchedule_reads (rk : Vector RoundKey 16) : (loadSchedule rk s).reads = s.reads := rfl
@[simp] theorem loadSchedule_raised (rk : Vector RoundKey 16) : (loadSchedule rk s).raised = s.raised := rfl
@[simp] theorem loadSchedule_resets (rk : Vector RoundKey 16) : (loadSchedule rk s).resets = s.resets := rfl

/-! raise -/
@[simp] theorem raise_key (e : ErrCode) : (raise e s).key = s.key := rfl
@[simp] theorem raise_din (e : ErrCode) : (raise e s).din = s.din := rfl
@[simp] theorem raise_dout (e : ErrCode) : (raise e s).dout = s.dout := rfl
@[simp] theorem raise_chain (e : ErrCode) : (raise e s).chain = s.chain := rfl
@[simp] theorem raise_ks (e : ErrCode) : (raise e s).ks = s.ks := rfl
@[simp] theorem raise_kv (e : ErrCode) : (raise e s).kv = s.kv := rfl
@[simp] theorem raise_err (e : ErrCode) : (raise e s).err = true := rfl
@[simp] theorem raise_ecode (e : ErrCode) : (raise e s).ecode = if s.err then s.ecode else e := rfl
@[simp] theorem raise_pend (e : ErrCode) : (raise e s).pend = s.pend := rfl
@[simp] theorem raise_script (e : ErrCode) : (raise e s).script = s.script := rfl
@[simp] theorem raise_turns (e : ErrCode) : (raise e s).turns = s.turns := rfl
@[simp] theorem raise_reads (e : ErrCode) : (raise e s).reads = s.reads := rfl
@[simp] theorem raise_raised (e : ErrCode) : (raise e s).raised = s.raised ++ [e] := rfl
@[simp] theorem raise_resets (e : ErrCode) : (raise e s).resets = s.resets := rfl

/-! clearError -/
@[simp] theorem clearError_key : (clearError s).key = s.key := rfl
@[simp] theorem clearError_din : (clearError s).din = s.din := rfl
@[simp] theorem clearError_dout : (clearError s).dout = s.dout := rfl
@[simp] theorem clearError_chain : (clearError s).chain = s.chain := rfl
@[simp] theorem clearError_ks : (clearError s).ks = s.ks := rfl
@[simp] theorem clearError_kv : (clearError s).kv = s.kv := rfl
@[simp] theorem clearError_err : (clearError s).err = false := rfl
@[simp] theorem clearError_ecode : (clearError s).ecode = .none := rfl
@[simp] theorem clearError_pend : (clearError s).pend = s.pend := rfl
@[simp] theorem clearError_script : (clearError s).script = s.script := rfl
@[simp] theorem clearError_turns : (clearError s).turns = s.turns := rfl
@[simp] theorem clearError_reads : (clearError s).reads = s.reads := rfl
@[simp] theorem clearError_raised : (clearError s).raised = s.raised := rfl
@[simp] theorem clearError_resets : (clearError s).resets = s.resets := rfl

/-! accept -/
@[simp] theorem accept_key (d : Instr) : (accept d s).key = s.key := rfl
@[simp] theorem accept_din (d : Instr) : (accept d s).din = s.din := rfl
@[simp] theorem accept_dout (d : Instr) : (accept d s).dout = s.dout := rfl
@[simp] theorem accept_chain (d : Instr) : (accept d s).chain = s.chain := rfl
@[simp] theorem accept_ks (d : Instr) : (accept d s).ks = s.ks := rfl
@[simp] theorem accept_kv (d : Instr) : (accept d s).kv = s.kv := rfl
@[simp] theorem accept_err (d : Instr) : (accept d s).err = s.err := rfl
@[simp] theorem accept_ecode (d : Instr) : (accept d s).ecode = s.ecode := rfl
@[simp] theorem accept_pend (d : Instr) : (accept d s).pend = some d := rfl
@[simp] theorem accept_script (d : Instr) : (accept d s).script = s.script := rfl
@[simp] theorem accept_turns (d : Instr) : (accept d s).turns = s.turns := rfl
@[simp] theorem accept_reads (d : Instr) : (accept d s).reads = s.reads := rfl
@[simp] theorem accept_raised (d : Instr) : (accept d s).raised = s.raised := rfl
@[simp] theorem accept_resets (d : Instr) : (accept d s).resets = s.resets := rfl

/-! popScript -/
@[simp] theorem popScript_key : (popScript s).key = s.key := rfl
@[simp] theorem popScript_din : (popScript s).din = s.din := rfl
@[simp] theorem popScript_dout : (popScript s).dout = s.dout := rfl
@[simp] theorem popScript_chain : (popScript s).chain = s.chain := rfl
@[simp] theorem popScript_ks : (popScript s).ks = s.ks := rfl
@[simp] theorem popScript_kv : (popScript s).kv = s.kv := rfl
@[simp] theorem popScript_err : (popScript s).err = s.err := rfl
@[simp] theorem popScript_ecode : (popScript s).ecode = s.ecode := rfl
@[simp] theorem popScript_pend : (popScript s).pend = s.pend := rfl
@[simp] theorem popScript_script : (popScript s).script = s.script.tail := rfl
@[simp] theorem popScript_turns : (popScript s).turns = s.turns := rfl
@[simp] theorem popScript_reads : (popScript s).reads = s.reads := rfl
@[simp] theorem popScript_raised : (popScript s).raised = s.raised := rfl
@[simp] theorem popScript_resets : (popScript s).resets = s.resets := rfl

/-! popTurn -/
@[simp] theorem popTurn_key : (popTurn s).key = s.key := rfl
@[simp] theorem popTurn_din : (popTurn s).din = s.din := rfl
@[simp] theorem popTurn_dout : (popTurn s).dout = s.dout := rfl
@[simp] theorem popTurn_chain : (popTurn s).chain = s.chain := rfl
@[simp] theorem popTurn_ks : (popTurn s).ks = s.ks := rfl
@[simp] theorem popTurn_kv : (popTurn s).kv = s.kv := rfl
@[simp] theorem popTurn_err : (popTurn s).err = s.err := rfl
@[simp] theorem popTurn_ecode : (popTurn s).ecode = s.ecode := rfl
@[simp] theorem popTurn_pend : (popTurn s).pend = s.pend := rfl
@[simp] theorem popTurn_script : (popTurn s).script = s.script := rfl
@[simp] theorem popTurn_turns : (popTurn s).turns = s.turns.tail := rfl
@[simp] theorem popTurn_reads : (popTurn s).reads = s.reads := rfl
@[simp] theorem popTurn_raised : (popTurn s).raised = s.raised := rfl
@[simp] theorem popTurn_resets : (popTurn s).resets = s.resets := rfl

/-! logRead -/
@[simp] theorem logRead_key (v : Word) : (logRead v s).key = s.key := rfl
@[simp] theorem logRead_din (v : Word) : (logRead v s).din = s.din := rfl
@[simp] theorem logRead_dout (v : Word) : (logRead v s).dout = s.dout := rfl
@[simp] theorem logRead_chain (v : Word) : (logRead v s).chain = s.chain := rfl
@[simp] theorem logRead_ks (v : Word) : (logRead v s).ks = s.ks := rfl
@[simp] theorem logRead_kv (v : Word) : (logRead v s).kv = s.kv := rfl
@[simp] theorem logRead_err (v : Word) : (logRead v s).err = s.err := rfl
@[simp] theorem logRead_ecode (v : Word) : (logRead v s).ecode = s.ecode := rfl
@[simp] theorem logRead_pend (v : Word) : (logRead v s).pend = s.pend := rfl
@[simp] theorem logRead_script (v : Word) : (logRead v s).script = s.script := rfl
@[simp] theorem logRead_turns (v : Word) : (logRead v s).turns = s.turns := rfl
@[simp] theorem logRead_reads (v : Word) : (logRead v s).reads = s.reads ++ [v] := rfl
@[simp] theorem logRead_raised (v : Word) : (logRead v s).raised = s.raised := rfl
@[simp] theorem logRead_resets (v : Word) : (logRead v s).resets = s.resets := rfl

/-! resetDevice -/
@[simp] theorem resetDevice_key : (resetDevice s).key = 0 := rfl
@[simp] theorem resetDevice_din : (resetDevice s).din = 0 := rfl
@[simp] theorem resetDevice_dout : (resetDevice s).dout = 0 := rfl
@[simp] theorem resetDevice_chain : (resetDevice s).chain = 0 := rfl
@[simp] theorem resetDevice_ks : (resetDevice s).ks = Config.ksAfterReset s.resets := rfl
@[simp] theorem resetDevice_kv : (resetDevice s).kv = false := rfl
@[simp] theorem resetDevice_err : (resetDevice s).err = false := rfl
@[simp] theorem resetDevice_ecode : (resetDevice s).ecode = .none := rfl
@[simp] theorem resetDevice_pend : (resetDevice s).pend = none := rfl
@[simp] theorem resetDevice_script : (resetDevice s).script = s.script := rfl
@[simp] theorem resetDevice_turns : (resetDevice s).turns = s.turns := rfl
@[simp] theorem resetDevice_reads : (resetDevice s).reads = s.reads := rfl
@[simp] theorem resetDevice_raised : (resetDevice s).raised = s.raised := rfl
@[simp] theorem resetDevice_resets : (resetDevice s).resets = s.resets + 1 := rfl

/-! State.hostDoes -/
@[simp] theorem State.hostDoes_key (op : HostOp) : (s.hostDoes op).key = s.key := rfl
@[simp] theorem State.hostDoes_din (op : HostOp) : (s.hostDoes op).din = s.din := rfl
@[simp] theorem State.hostDoes_dout (op : HostOp) : (s.hostDoes op).dout = s.dout := rfl
@[simp] theorem State.hostDoes_chain (op : HostOp) : (s.hostDoes op).chain = s.chain := rfl
@[simp] theorem State.hostDoes_ks (op : HostOp) : (s.hostDoes op).ks = s.ks := rfl
@[simp] theorem State.hostDoes_kv (op : HostOp) : (s.hostDoes op).kv = s.kv := rfl
@[simp] theorem State.hostDoes_err (op : HostOp) : (s.hostDoes op).err = s.err := rfl
@[simp] theorem State.hostDoes_ecode (op : HostOp) : (s.hostDoes op).ecode = s.ecode := rfl
@[simp] theorem State.hostDoes_pend (op : HostOp) : (s.hostDoes op).pend = s.pend := rfl
@[simp] theorem State.hostDoes_script (op : HostOp) : (s.hostDoes op).script = op :: s.script := rfl
@[simp] theorem State.hostDoes_turns (op : HostOp) : (s.hostDoes op).turns = .host :: s.turns := rfl
@[simp] theorem State.hostDoes_reads (op : HostOp) : (s.hostDoes op).reads = s.reads := rfl
@[simp] theorem State.hostDoes_raised (op : HostOp) : (s.hostDoes op).raised = s.raised := rfl
@[simp] theorem State.hostDoes_resets (op : HostOp) : (s.hostDoes op).resets = s.resets := rfl

/-! State.turnOf -/
@[simp] theorem State.turnOf_key (t : Turn) : (s.turnOf t).key = s.key := rfl
@[simp] theorem State.turnOf_din (t : Turn) : (s.turnOf t).din = s.din := rfl
@[simp] theorem State.turnOf_dout (t : Turn) : (s.turnOf t).dout = s.dout := rfl
@[simp] theorem State.turnOf_chain (t : Turn) : (s.turnOf t).chain = s.chain := rfl
@[simp] theorem State.turnOf_ks (t : Turn) : (s.turnOf t).ks = s.ks := rfl
@[simp] theorem State.turnOf_kv (t : Turn) : (s.turnOf t).kv = s.kv := rfl
@[simp] theorem State.turnOf_err (t : Turn) : (s.turnOf t).err = s.err := rfl
@[simp] theorem State.turnOf_ecode (t : Turn) : (s.turnOf t).ecode = s.ecode := rfl
@[simp] theorem State.turnOf_pend (t : Turn) : (s.turnOf t).pend = s.pend := rfl
@[simp] theorem State.turnOf_script (t : Turn) : (s.turnOf t).script = s.script := rfl
@[simp] theorem State.turnOf_turns (t : Turn) : (s.turnOf t).turns = t :: s.turns := rfl
@[simp] theorem State.turnOf_reads (t : Turn) : (s.turnOf t).reads = s.reads := rfl
@[simp] theorem State.turnOf_raised (t : Turn) : (s.turnOf t).raised = s.raised := rfl
@[simp] theorem State.turnOf_resets (t : Turn) : (s.turnOf t).resets = s.resets := rfl

/-! placeAccepted -/
@[simp] theorem placeAccepted_key (d : Instr) : (placeAccepted d s).key = s.key := rfl
@[simp] theorem placeAccepted_din (d : Instr) : (placeAccepted d s).din = s.din := rfl
@[simp] theorem placeAccepted_dout (d : Instr) : (placeAccepted d s).dout = s.dout := rfl
@[simp] theorem placeAccepted_chain (d : Instr) : (placeAccepted d s).chain = s.chain := rfl
@[simp] theorem placeAccepted_ks (d : Instr) : (placeAccepted d s).ks = s.ks := rfl
@[simp] theorem placeAccepted_kv (d : Instr) : (placeAccepted d s).kv = (s.kv || needsKV d) := rfl
@[simp] theorem placeAccepted_err (d : Instr) : (placeAccepted d s).err = s.err := rfl
@[simp] theorem placeAccepted_ecode (d : Instr) : (placeAccepted d s).ecode = s.ecode := rfl
@[simp] theorem placeAccepted_pend (d : Instr) : (placeAccepted d s).pend = some d := rfl
@[simp] theorem placeAccepted_script (d : Instr) : (placeAccepted d s).script = s.script := rfl
@[simp] theorem placeAccepted_turns (d : Instr) : (placeAccepted d s).turns = [] := rfl
@[simp] theorem placeAccepted_reads (d : Instr) : (placeAccepted d s).reads = s.reads := rfl
@[simp] theorem placeAccepted_raised (d : Instr) : (placeAccepted d s).raised = s.raised := rfl
@[simp] theorem placeAccepted_resets (d : Instr) : (placeAccepted d s).resets = s.resets := rfl

/-! placeCommandWrite -/
@[simp] theorem placeCommandWrite_key (w : Word) : (placeCommandWrite w s).key = s.key := rfl
@[simp] theorem placeCommandWrite_din (w : Word) : (placeCommandWrite w s).din = s.din := rfl
@[simp] theorem placeCommandWrite_dout (w : Word) : (placeCommandWrite w s).dout = s.dout := rfl
@[simp] theorem placeCommandWrite_chain (w : Word) : (placeCommandWrite w s).chain = s.chain := rfl
@[simp] theorem placeCommandWrite_ks (w : Word) : (placeCommandWrite w s).ks = s.ks := rfl
@[simp] theorem placeCommandWrite_kv (w : Word) : (placeCommandWrite w s).kv = s.kv := rfl
@[simp] theorem placeCommandWrite_err (w : Word) : (placeCommandWrite w s).err = s.err := rfl
@[simp] theorem placeCommandWrite_ecode (w : Word) : (placeCommandWrite w s).ecode = s.ecode := rfl
@[simp] theorem placeCommandWrite_pend (w : Word) : (placeCommandWrite w s).pend = none := rfl
@[simp] theorem placeCommandWrite_script (w : Word) : (placeCommandWrite w s).script = .write .cmd w :: s.script := rfl
@[simp] theorem placeCommandWrite_turns (w : Word) : (placeCommandWrite w s).turns = [] := rfl
@[simp] theorem placeCommandWrite_reads (w : Word) : (placeCommandWrite w s).reads = s.reads := rfl
@[simp] theorem placeCommandWrite_raised (w : Word) : (placeCommandWrite w s).raised = s.raised := rfl
@[simp] theorem placeCommandWrite_resets (w : Word) : (placeCommandWrite w s).resets = s.resets := rfl

end Sys2Proof.Machine
end

