-- ==== Sys2Proof/Laws/Ops.lean ====
section
/-! SUPPORT. What each shared operation of the host's and the core's events can do, said once: the
issue of a command, a register write, the host's turn, the core's performing, and a step. -/
namespace Sys2Proof.Machine

open Host (Outcome)

/-- A busy device is one with a command pending. -/
theorem busy_iff (s : State) : s.busy = true ↔ ∃ d, s.pend = some d := by
  simp [State.busy, Option.isSome_iff_exists]

theorem busy_eq_false_iff (s : State) : s.busy = false ↔ s.pend = none := by
  simp [State.busy]

/-- IssueCommand has four outcomes: three refusals and an acceptance. -/
theorem issueCommand_cases (w : Word) (s : State) :
    (s.busy = true ∧ issueCommand w s = raise .busyWrite s) ∨
    (s.busy = false ∧ (∃ e, decode w = .error e) ∧ issueCommand w s = raise .illegalCmd s) ∨
    (∃ d, s.busy = false ∧ decode w = .ok d ∧ needsKV d = true ∧ s.kv = false ∧
      issueCommand w s = raise .noKey s) ∨
    (∃ d, s.busy = false ∧ decode w = .ok d ∧ (needsKV d = true → s.kv = true) ∧
      issueCommand w s = accept d s) := by
  unfold issueCommand
  cases hb : s.busy
  · cases hd : decode w with
    | error e => simp
    | ok d => cases hn : needsKV d <;> cases hk : s.kv <;> simp [hn]
  · simp

/-- A register write either raises one error, changes one of KEY, DIN and CHAIN, accepts a command,
clears the error record, or does nothing (a STATUS write without bit 2). -/
theorem hostWrite_cases (r : Slot) (v : Word) (s : State) :
    (∃ e, e ≠ .none ∧ hostWrite r v s = raise e s) ∨
    (s.busy = false ∧ r = .key ∧ hostWrite r v s = { s with key := v }) ∨
    (s.busy = false ∧ r = .din ∧ hostWrite r v s = { s with din := v }) ∨
    (s.busy = false ∧ r = .chain ∧ hostWrite r v s = { s with chain := v }) ∨
    (∃ d, s.busy = false ∧ r = .cmd ∧ decode v = .ok d ∧ (needsKV d = true → s.kv = true) ∧
      hostWrite r v s = accept d s) ∨
    (r = .status ∧ clearsError v = true ∧ hostWrite r v s = clearError s) ∨
    (r = .status ∧ clearsError v = false ∧ hostWrite r v s = s) := by
  cases r
  case cmd =>
    obtain ⟨-, h⟩ | ⟨-, -, h⟩ | ⟨d, -, -, -, -, h⟩ | ⟨d, hb, hd, hk, h⟩ := issueCommand_cases v s
    · exact .inl ⟨_, by decide, h⟩
    · exact .inl ⟨_, by decide, h⟩
    · exact .inl ⟨_, by decide, h⟩
    · exact .inr (.inr (.inr (.inr (.inl ⟨d, hb, rfl, hd, hk, h⟩))))
  case status => cases hc : clearsError v <;> simp [hostWrite, hc]
  case dout => exact .inl ⟨.badWrite, by decide, rfl⟩
  case reserved6 => exact .inl ⟨.badWrite, by decide, rfl⟩
  case reserved7 => exact .inl ⟨.badWrite, by decide, rfl⟩
  case key =>
    cases hb : s.busy
    · simp [hostWrite, writeOperand, hb]
    · exact .inl ⟨.busyWrite, by decide, by simp [hostWrite, writeOperand, hb]⟩
  case din =>
    cases hb : s.busy
    · simp [hostWrite, writeOperand, hb]
    · exact .inl ⟨.busyWrite, by decide, by simp [hostWrite, writeOperand, hb]⟩
  case chain =>
    cases hb : s.busy
    · simp [hostWrite, writeOperand, hb]
    · exact .inl ⟨.busyWrite, by decide, by simp [hostWrite, writeOperand, hb]⟩

/-- What a read returns does not depend on the host's program. -/
@[simp] theorem hostRead_popScript (r : Slot) (s : State) : hostRead r (popScript s) = hostRead r s := by
  cases r <;> rfl

/-- The host's turn: nothing, the end of a WAIT, a read, or a write. -/
theorem hostTurn_cases {s t : State} (h : hostTurn s = .next t) :
    t = s ∨ (s.busy = false ∧ t = popScript s) ∨
    (∃ r, t = logRead (hostRead r s) (popScript s)) ∨
    (∃ r v, nextWrite s = some (r, v) ∧ t = hostWrite r v (popScript s)) := by
  unfold hostTurn at h
  split at h
  · exact .inl (by simpa using h.symm)
  next r ops hs => exact .inr (.inr (.inl ⟨r, by simpa using h.symm⟩))
  next r v ops hs =>
    exact .inr (.inr (.inr ⟨r, v, by simp [nextWrite, hs], by simpa using h.symm⟩))
  next ops hs =>
    have hbit : (hostRead .status s).getLsbD 0 = s.busy := by
      simp only [hostRead, statusWord]
      cases s.busy <;> cases s.kv <;> cases s.err <;> cases s.ecode <;> decide
    rw [hbit] at h
    cases hb : s.busy
    · exact .inr (.inl ⟨rfl, by simpa [hb] using h.symm⟩)
    · exact .inl (by simpa [hb] using h.symm)
  next a ops hs =>
    split at h
    next r hr =>
      cases hv : a.value with
      | some v =>
        exact .inr (.inr (.inr ⟨r, v, by simp [nextWrite, hs, hr, hv],
          by simpa [busTransaction, hv] using h.symm⟩))
      | none => exact .inr (.inr (.inl ⟨r, by simpa [busTransaction, hv] using h.symm⟩))
    · cases h

/-- What the performing of a command may write (R40): its DOUT, its CHAIN, or KS and KV; and PEND
is none afterwards. -/
theorem exec_cases {d : Instr} {s t : State} (h : exec d s = .next t) :
    t = { s with dout := t.dout, chain := t.chain, ks := t.ks, kv := t.kv, pend := none } ∧
    ((t.ks = s.ks ∧ t.kv = s.kv) ∨
      (d = .keyldRaw ∧ t.ks = keySchedule (permPC1 s.key) ∧ t.kv = true) ∨
      (d = .keyldCmp ∧ t.ks = keySchedule (compressedKey s) ∧ t.kv = true)) := by
  cases d <;> cases h <;> exact ⟨rfl, by simp [rawKey]⟩

/-- One step is one event: a reset, the core's turn, or the host's turn. -/
theorem step_cases {s t : State} (h : step s = .next t) :
    (nextTurn s = .reset ∧ t = resetDevice (popTurn s)) ∨
    (nextTurn s = .core ∧ s.pend = none ∧ t = popTurn s) ∨
    (∃ d, nextTurn s = .core ∧ s.pend = some d ∧ exec d (popTurn s) = .next t) ∨
    (nextTurn s = .host ∧ hostTurn (popTurn s) = .next t) := by
  unfold step at h
  split at h
  next hn => exact .inr (.inr (.inr ⟨hn, h⟩))
  next hn =>
    unfold coreTurn at h
    split at h
    next d hd => exact .inr (.inr (.inl ⟨d, hn, by simpa using hd, h⟩))
    next hd => exact .inr (.inl ⟨hn, by simpa using hd, by simpa using h.symm⟩)
  next hn => exact .inl ⟨hn, by simpa using h.symm⟩

/-- The turn taken changes nothing the next write depends on. -/
@[simp] theorem nextWrite_popTurn (s : State) : nextWrite (popTurn s) = nextWrite s := rfl

/-- The turn taken and the operation popped leave the device as it is. -/
@[simp] theorem busy_popTurn (s : State) : (popTurn s).busy = s.busy := rfl
@[simp] theorem busy_popScript (s : State) : (popScript s).busy = s.busy := rfl

end Sys2Proof.Machine
end

