-- ==== Sys2Proof/Laws/PerInstr.lean ====
section
/-! SUPPORT. The encoding of each command, constructor by constructor: the fields of its word. -/
namespace Sys2Proof.Laws.Fields

/-- The word of a command carries its OP (R81), the RIDX it uses or 0 (R83), and RSVD = 0 (R83). -/
def Statement (i : Instr) : Prop :=
  opField (encode i) = i.op ∧ ridxField (encode i) = i.ridx ∧ rsvdField (encode i) = 0 ∧
  (opUsesRidx i.op = false → i.ridx = 0)

theorem nop : Statement .nop := by unfold Statement; decide
theorem keyldRaw : Statement .keyldRaw := by unfold Statement; decide
theorem keyldCmp : Statement .keyldCmp := by unfold Statement; decide
theorem enc : Statement .enc := by unfold Statement; decide
theorem dec : Statement .dec := by unfold Statement; decide
theorem cbcEnc : Statement .cbcEnc := by unfold Statement; decide
theorem cbcDec : Statement .cbcDec := by unfold Statement; decide
theorem cfbEnc : Statement .cfbEnc := by unfold Statement; decide
theorem cfbDec : Statement .cfbDec := by unfold Statement; decide
theorem permIp : Statement .permIp := by unfold Statement; decide
theorem permFp : Statement .permFp := by unfold Statement; decide
theorem permE : Statement .permE := by unfold Statement; decide
theorem permP : Statement .permP := by unfold Statement; decide
theorem permPc1 : Statement .permPc1 := by unfold Statement; decide
theorem permPc2 : Statement .permPc2 := by unfold Statement; decide
theorem sbox : Statement .sbox := by unfold Statement; decide
theorem ffunc (ridx : Fin 16) : Statement (.ffunc ridx) := by
  unfold Statement; revert ridx; decide
theorem rkrd (ridx : Fin 16) : Statement (.rkrd ridx) := by
  unfold Statement; revert ridx; decide

end Sys2Proof.Laws.Fields
end

