-- ==== Sys2Proof/Laws/Permutation.lean ====
section
/-! SUPPORT. The permutation engine bit by bit: output position j is input position T[j]. -/
namespace Sys2Proof.Machine

/-- The engine's loop, from any partial output: the bits still to come enter at the right, and the
partial output moves left by their number. -/
theorem getLsbD_permuteLoop {n m : Nat} (v : BitVec n) (table : List Nat) :
    ∀ (acc : BitVec m) (k : Nat),
      (table.foldl (fun w p => w.shiftConcat (desBit v p)) acc).getLsbD k =
        (decide (k < m) &&
          if k < table.length then desBit v (table.getD (table.length - 1 - k) 0)
          else acc.getLsbD (k - table.length)) := by
  induction table with
  | nil =>
    intro acc k
    by_cases hk : k < m
    · simp [hk]
    · simp [hk, BitVec.getLsbD_of_ge acc k (by omega)]
  | cons p rest ih =>
    intro acc k
    rw [List.foldl_cons, ih]
    by_cases hm : k < m
    · simp only [hm, decide_true, Bool.true_and, List.length_cons]
      by_cases h1 : k < rest.length
      · have h2 : k < rest.length + 1 := by omega
        have h3 : rest.length + 1 - 1 - k = (rest.length - 1 - k) + 1 := by omega
        rw [if_pos h1, if_pos h2, h3, List.getD_cons_succ]
      · by_cases h2 : k = rest.length
        · subst h2
          have h0 : 0 < m := by omega
          simp [h0]
        · have h3 : ¬ k < rest.length + 1 := by omega
          have h4 : k - rest.length ≠ 0 := by omega
          have h5 : k - rest.length < m := by omega
          have h6 : k - rest.length - 1 = k - (rest.length + 1) := by omega
          rw [if_neg h1, if_neg h3, BitVec.getLsbD_shiftConcat]
          simp [h4, h5, h6]
    · simp [hm]

/-- Permute (R100), bit by bit. -/
theorem getLsbD_permute {n m : Nat} (table : List Nat) (v : BitVec n) (hlen : table.length = m)
    (k : Nat) :
    (permute table n m v).getLsbD k =
      (decide (k < m) && desBit v (table.getD (m - 1 - k) 0)) := by
  unfold permute
  rw [getLsbD_permuteLoop, hlen]
  by_cases hk : k < m <;> simp [hk]

/-- Permute (R100) in the spec's own form: DES position j of the result is position T[j] of v. -/
theorem desBit_permute {n m : Nat} (table : List Nat) (v : BitVec n) (hlen : table.length = m)
    (j : Nat) (h1 : 1 ≤ j) (hm : j ≤ m) :
    desBit (permute table n m v) j = desBit v (table.getD (j - 1) 0) := by
  have h2 : m - j < m := by omega
  have h3 : m - 1 - (m - j) = j - 1 := by omega
  unfold desBit
  rw [getLsbD_permute table v hlen]
  simp [h2, h3, desBit]

theorem length_tableIP : tableIP.length = 64 := rfl
theorem length_tableFP : tableFP.length = 64 := rfl
theorem length_tableE : tableE.length = 48 := rfl
theorem length_tableP : tableP.length = 32 := rfl
theorem length_tablePC1 : tablePC1.length = 56 := rfl
theorem length_tablePC2 : tablePC2.length = 48 := rfl

end Sys2Proof.Machine
end

