-- ==== Sys2Proof/Laws/RoundFunction.lean ====
section
/-! SUPPORT. The S-box stage nibble by nibble: nibble k of the result is S(k+1) of group k. -/
namespace Sys2Proof.Machine

/-- The last nibble of a concatenation. -/
theorem lastNibble_append {n : Nat} (v : BitVec n) (x : BitVec 4) :
    (v ++ x).extractLsb' 0 4 = x := by
  apply BitVec.eq_of_getLsbD_eq
  intro i hi
  rw [BitVec.getLsbD_extractLsb', BitVec.getLsbD_append]
  simp [hi]

/-- A nibble to the left of the last one. -/
theorem nibble_append {n : Nat} (v : BitVec n) (x : BitVec 4) (a : Nat) :
    (v ++ x).extractLsb' (a + 4) 4 = v.extractLsb' a 4 := by
  apply BitVec.eq_of_getLsbD_eq
  intro i hi
  have h1 : ¬ a + 4 + i < 4 := by omega
  have h2 : a + 4 + i - 4 = a + i := by omega
  rw [BitVec.getLsbD_extractLsb', BitVec.getLsbD_extractLsb', BitVec.getLsbD_append]
  simp [h1, h2]

/-- The whole of a nibble. -/
theorem nibble_self (x : BitVec 4) : x.extractLsb' 0 4 = x := by
  apply BitVec.eq_of_getLsbD_eq
  intro i hi
  rw [BitVec.getLsbD_extractLsb']
  simp [hi]

/-- Subst (R152): s[31-4k : 28-4k] is S(k+1) of group k. -/
theorem subst_nibble (x : BitVec 48) (k : Nat) (hk : k < 8) :
    (subst x).extractLsb' (28 - 4 * k) 4 =
      sboxLookup
        ([tableS1, tableS2, tableS3, tableS4, tableS5, tableS6, tableS7, tableS8].getD k [])
        (sboxGroup x k) := by
  have hcases : k = 0 ∨ k = 1 ∨ k = 2 ∨ k = 3 ∨ k = 4 ∨ k = 5 ∨ k = 6 ∨ k = 7 := by omega
  obtain rfl | rfl | rfl | rfl | rfl | rfl | rfl | rfl := hcases
  · exact (nibble_append _ _ 24).trans <| (nibble_append _ _ 20).trans <|
      (nibble_append _ _ 16).trans <| (nibble_append _ _ 12).trans <|
      (nibble_append _ _ 8).trans <| (nibble_append _ _ 4).trans <|
      (nibble_append _ _ 0).trans (nibble_self _)
  · exact (nibble_append _ _ 20).trans <|
      (nibble_append _ _ 16).trans <| (nibble_append _ _ 12).trans <|
      (nibble_append _ _ 8).trans <| (nibble_append _ _ 4).trans <|
      (nibble_append _ _ 0).trans (lastNibble_append _ _)
  · exact (nibble_append _ _ 16).trans <| (nibble_append _ _ 12).trans <|
      (nibble_append _ _ 8).trans <| (nibble_append _ _ 4).trans <|
      (nibble_append _ _ 0).trans (lastNibble_append _ _)
  · exact (nibble_append _ _ 12).trans <|
      (nibble_append _ _ 8).trans <| (nibble_append _ _ 4).trans <|
      (nibble_append _ _ 0).trans (lastNibble_append _ _)
  · exact (nibble_append _ _ 8).trans <| (nibble_append _ _ 4).trans <|
      (nibble_append _ _ 0).trans (lastNibble_append _ _)
  · exact (nibble_append _ _ 4).trans <| (nibble_append _ _ 0).trans (lastNibble_append _ _)
  · exact (nibble_append _ _ 0).trans (lastNibble_append _ _)
  · exact lastNibble_append _ _

end Sys2Proof.Machine
end

