-- ==== Sys2Proof/Laws/Run.lean ====
section
/-! SUPPORT. Runs of several steps, one step at a time. -/
namespace Sys2Proof.Machine

/-- No steps. -/
theorem run_zero (s : State) : Host.Core.run Sys2Proof.core 0 s = .next s := rfl

/-- A step that gives a next state, then the rest. -/
theorem run_succ {s t : State} (n : Nat) (h : step s = .next t) :
    Host.Core.run Sys2Proof.core (n + 1) s = Host.Core.run Sys2Proof.core n t := by
  have h' : Sys2Proof.core.step s = .next t := h
  simp only [Host.Core.run, h']

/-- A step that is refused ends the run. -/
theorem run_succ_refused {s : State} {r : Refusal} (n : Nat) (h : step s = .refused r) :
    Host.Core.run Sys2Proof.core (n + 1) s = .refused r := by
  have h' : Sys2Proof.core.step s = .refused r := h
  simp only [Host.Core.run, h']

/-- One step is a run of one step. -/
theorem run_one {s t : State} (h : step s = .next t) :
    Host.Core.run Sys2Proof.core 1 s = .next t := run_succ 0 h

/-- Two runs, one after the other. -/
theorem run_add (m : Nat) :
    ∀ {s t : State} (n : Nat), Host.Core.run Sys2Proof.core m s = .next t →
      Host.Core.run Sys2Proof.core (m + n) s = Host.Core.run Sys2Proof.core n t := by
  induction m with
  | zero =>
    intro s t n h
    have hst : s = t := Host.Outcome.next.inj h
    rw [hst, Nat.zero_add]
  | succ m ih =>
    intro s t n h
    cases hs : step s with
    | next u =>
      rw [run_succ m hs] at h
      rw [Nat.add_right_comm, run_succ (m + n) hs]
      exact ih n h
    | fault r => cases r
    | refused r =>
      rw [run_succ_refused m hs] at h
      cases h

end Sys2Proof.Machine
end

