-- ==== Sys2Proof/Laws/Stream.lean ====
section
/-! SUPPORT. Sizes at the stream layer. -/
namespace Sys2Proof.Machine

@[simp] theorem length_blockToBytes (v : Word) : (blockToBytes v).length = 8 := rfl

@[simp] theorem length_memRead (buf : List Byte) (off n : Nat) :
    (memRead buf off n).length = min n (buf.length - off) := by
  simp [memRead]

@[simp] theorem readBlock_snd (al : ShortAlign) (buf : List Byte) (off : Nat) :
    (readBlock al buf off).2 = min 8 (buf.length - off) := by
  simp [readBlock]

/-- ceil(len / 8) chunks (R200). -/
@[simp] theorem length_chunks (al : ShortAlign) (text : List Byte) :
    (chunks al text).length = (text.length + 7) / 8 := by
  simp [chunks]

/-- One result block for each block. -/
@[simp] theorem length_streamBlocks (op : StreamOp) (ks : Vector RoundKey 16) (xs : List Word) :
    ∀ prev : Word, (streamBlocks op ks prev xs).length = xs.length := by
  induction xs with
  | nil => intro prev; rfl
  | cons x xs ih => intro prev; simp [streamBlocks, ih]

end Sys2Proof.Machine
end

