-- ==== Sys2Proof/Machine/Assembly.lean ====
section
/-! DEFINITION. The host assembly (30_encoding.md R89, R90): each line as the host operations it
stands for. A line is a term here, not text. -/
namespace Sys2Proof.Machine

/-- A line of host assembly: the four forms of R89, then the pseudo-instructions of R90. -/
inductive AsmLine where
  /-- WR reg, imm64 -/
  | wr (r : Slot) (imm : Word)
  /-- RD reg -> name -/
  | rd (r : Slot)
  /-- CMD mnemonic[, i] -/
  | cmd (d : Instr)
  /-- WAIT -/
  | wait
  /-- ECB_ENC -/
  | ecbEnc
  /-- ECB_DEC -/
  | ecbDec
  /-- RUN mnemonic[, i] -/
  | run (d : Instr)
  /-- LDKEY imm64 -/
  | ldkey (imm : Word)
  /-- LDKEYC imm56, the literal zero-extended to 64 bits -/
  | ldkeyc (imm : Word)
  /-- LDIV imm64 -/
  | ldiv (imm : Word)
  /-- CLRERR -/
  | clrerr
deriving DecidableEq, Repr

/-- CMD m: a write of its word to CMD (R89). -/
def cmdOp (d : Instr) : HostOp := .write .cmd (encode d)

/-- The host operations of a line (R89, R90). -/
def AsmLine.expand : AsmLine → List HostOp
  | .wr r imm => [.write r imm]
  | .rd r => [.read r]
  | .cmd d => [cmdOp d]
  | .wait => [.wait]
  | .ecbEnc => [cmdOp .enc]
  | .ecbDec => [cmdOp .dec]
  | .run d => [cmdOp d, .wait]
  | .ldkey imm => [.write .key imm, cmdOp .keyldRaw, .wait]
  | .ldkeyc imm => [.write .key imm, cmdOp .keyldCmp, .wait]
  | .ldiv imm => [.write .chain imm]
  | .clrerr => [.write .status 0x4]

/-- A program: its lines one after another. -/
def assembleProgram (lines : List AsmLine) : List HostOp := lines.flatMap AsmLine.expand

end Sys2Proof.Machine
end

