-- ==== Sys2Proof/Tests/Slice0.lean ====
section
/-! SUPPORT. The model's own tests. The expected values are the spec's: the examples and corner cases
of its rules and 95_test_vectors.md, whose numbers (V…) stand beside them. After them, the witnesses:
for each statement of Certificates/Slice0/Obligations.lean that has hypotheses, a concrete state and
operands that meet them. -/
namespace Sys2Proof.Tests

open Sys2Proof.Machine

/-! ### Well-formedness: one ill-formed access for each check (R51) -/

theorem test_access_wellFormed : (BusAccess.mk 0x38 64 none).wellFormed = true := by decide
theorem test_access_width_refused :
    (BusAccess.mk 0x10 32 none).wellFormed = false ∧ (BusAccess.mk 0x10 32 none).wholeWord = false ∧
      (BusAccess.mk 0x10 32 none).aligned = true ∧ (BusAccess.mk 0x10 32 none).inBlock = true := by
  decide
theorem test_access_alignment_refused :
    (BusAccess.mk 0x14 64 none).wellFormed = false ∧ (BusAccess.mk 0x14 64 none).aligned = false ∧
      (BusAccess.mk 0x14 64 none).wholeWord = true ∧ (BusAccess.mk 0x14 64 none).inBlock = true := by
  decide
theorem test_access_range_refused :
    (BusAccess.mk 0x40 64 none).wellFormed = false ∧ (BusAccess.mk 0x40 64 none).inBlock = false ∧
      (BusAccess.mk 0x40 64 none).wholeWord = true ∧ (BusAccess.mk 0x40 64 none).aligned = true := by
  decide

/-! ### Decoding: the word of every command, written out as RSVD, RIDX, OP (R80, R81) -/

theorem test_decode_nop : decode (0#52 ++ 0b0000#4 ++ 0b00000000#8) = .ok .nop := rfl
theorem test_decode_keyldRaw : decode (0#52 ++ 0b0000#4 ++ 0b00000001#8) = .ok .keyldRaw := rfl
theorem test_decode_keyldCmp : decode (0#52 ++ 0b0000#4 ++ 0b00000010#8) = .ok .keyldCmp := rfl
theorem test_decode_enc : decode (0#52 ++ 0b0000#4 ++ 0b00010000#8) = .ok .enc := rfl
theorem test_decode_dec : decode (0#52 ++ 0b0000#4 ++ 0b00010001#8) = .ok .dec := rfl
theorem test_decode_cbcEnc : decode (0#52 ++ 0b0000#4 ++ 0b00010010#8) = .ok .cbcEnc := rfl
theorem test_decode_cbcDec : decode (0#52 ++ 0b0000#4 ++ 0b00010011#8) = .ok .cbcDec := rfl
theorem test_decode_cfbEnc : decode (0#52 ++ 0b0000#4 ++ 0b00010100#8) = .ok .cfbEnc := rfl
theorem test_decode_cfbDec : decode (0#52 ++ 0b0000#4 ++ 0b00010101#8) = .ok .cfbDec := rfl
theorem test_decode_permIp : decode (0#52 ++ 0b0000#4 ++ 0b00100000#8) = .ok .permIp := rfl
theorem test_decode_permFp : decode (0#52 ++ 0b0000#4 ++ 0b00100001#8) = .ok .permFp := rfl
theorem test_decode_permE : decode (0#52 ++ 0b0000#4 ++ 0b00100010#8) = .ok .permE := rfl
theorem test_decode_permP : decode (0#52 ++ 0b0000#4 ++ 0b00100011#8) = .ok .permP := rfl
theorem test_decode_permPc1 : decode (0#52 ++ 0b0000#4 ++ 0b00100100#8) = .ok .permPc1 := rfl
theorem test_decode_permPc2 : decode (0#52 ++ 0b0000#4 ++ 0b00100101#8) = .ok .permPc2 := rfl
theorem test_decode_sbox : decode (0#52 ++ 0b0000#4 ++ 0b00100110#8) = .ok .sbox := rfl
theorem test_decode_ffunc : decode (0#52 ++ 0b1010#4 ++ 0b00100111#8) = .ok (.ffunc 10) := rfl
theorem test_decode_rkrd : decode (0#52 ++ 0b0101#4 ++ 0b00101000#8) = .ok (.rkrd 5) := rfl
/-- V51 to V51e. -/
theorem test_decode_illegal :
    decode 0x0000000000000100 = .error .ridxNonzero ∧ decode 0x0000000000001000 = .error .rsvdNonzero ∧
    decode 0x0000000000000029 = .error .unassignedOp ∧ decode 0x00000000000000FF = .error .unassignedOp :=
  ⟨rfl, rfl, rfl, rfl⟩
theorem test_encode_rkrd : encode (.rkrd 1) = 0x0000000000000128 := rfl

/-! ### One step per command -/

/-- The round keys of R137. -/
def ksR137 : Vector RoundKey 16 :=
  ⟨#[0x1B02EFFC7072, 0x79AED9DBC9E5, 0x55FC8A42CF99, 0x72ADD6DB351D,
     0x7CEC07EB53A8, 0x63A53E507B2F, 0xEC84B7F618BC, 0xF78A3AC13BFB,
     0xE0DBEBEDE781, 0xB1F347BA464F, 0x215FD3DED386, 0x7571F59467E9,
     0x97C5D1FABA41, 0x5F43B7F2E73A, 0xBF918D3D3F0A, 0xCB3D8B0E17F5], rfl⟩

/-- A device with the command d pending, DIN, and the round keys of R137 loaded. -/
def pendingWith (d : Instr) (din : Word) : State :=
  { State.reset with ks := ksR137, kv := true, din := din, pend := some d }

/-- The same with the schedule of the raw key 0x0123456789ABCDEF and a value in CHAIN. -/
def chainedWith (d : Instr) (chain din : Word) : State :=
  { State.reset with
    ks := keySchedule (permPC1 0x0123456789ABCDEF), kv := true, din := din, chain := chain,
    pend := some d }

/-- DOUT and CHAIN after one step. -/
def results (o : Host.Outcome State Fault Refusal) : Option (Word × Word) :=
  match o with
  | .next s => some (s.dout, s.chain)
  | .fault _ => none
  | .refused _ => none

/-- KS and STATUS after one step. -/
def schedule (o : Host.Outcome State Fault Refusal) : Option (Vector RoundKey 16 × Word) :=
  match o with
  | .next s => some (s.ks, hostRead .status s)
  | .fault _ => none
  | .refused _ => none

/-- R222: only PEND changes. -/
theorem test_nop : step (pendingWith .nop 7) = .next { pendingWith .nop 7 with pend := none } := rfl
/-- R137, V20. -/
theorem test_keyldRaw :
    schedule (step { State.reset with key := 0x133457799BBCDFF1, pend := some .keyldRaw }) =
      some (ksR137, 0x02) := by decide +kernel
/-- V22: FEFEFEFEFEFEFEFE gives all ones. -/
theorem test_keyldRaw_ones :
    schedule (step { State.reset with key := 0xFEFEFEFEFEFEFEFE, pend := some .keyldRaw }) =
      some (Vector.replicate 16 0xFFFFFFFFFFFF, 0x02) := by decide +kernel
/-- V21a: the top byte of KEY is ignored. -/
theorem test_keyldCmp :
    schedule (step { State.reset with key := 0xFFF0CCAAF556678F, pend := some .keyldCmp }) =
      some (ksR137, 0x02) := by decide +kernel
/-- R136's example and V23a's index 0. -/
theorem test_rkrd : results (step (pendingWith (.rkrd 1) 0)) = some (0x000079AED9DBC9E5, 0) := by
  decide +kernel
/-- V30. -/
theorem test_enc :
    results (step (pendingWith .enc 0x0123456789ABCDEF)) = some (0x85E813540F0AB405, 0) := by
  decide +kernel
/-- V30b. -/
theorem test_dec :
    results (step (pendingWith .dec 0x0123456789ABCDEF)) = some (0xEE0F7C12E0B09338, 0) := by
  decide +kernel
/-- V37. -/
theorem test_cbcEnc :
    results (step (chainedWith .cbcEnc 0x1234567890ABCDEF 0x4E6F772069732074)) =
      some (0xE5C7CDDE872BF27C, 0xE5C7CDDE872BF27C) := by decide +kernel
/-- V37a: CHAIN takes the input ciphertext. -/
theorem test_cbcDec :
    results (step (chainedWith .cbcDec 0x1234567890ABCDEF 0xE5C7CDDE872BF27C)) =
      some (0x4E6F772069732074, 0xE5C7CDDE872BF27C) := by decide +kernel
/-- V38. -/
theorem test_cfbEnc :
    results (step (chainedWith .cfbEnc 0x1234567890ABCDEF 0x4E6F772069732074)) =
      some (0xF3096249C7F46E51, 0xF3096249C7F46E51) := by decide +kernel
/-- V38a: CHAIN takes the consumed ciphertext. -/
theorem test_cfbDec :
    results (step (chainedWith .cfbDec 0x1234567890ABCDEF 0xF3096249C7F46E51)) =
      some (0x4E6F772069732074, 0xF3096249C7F46E51) := by decide +kernel
/-- V10. -/
theorem test_permIp :
    results (step (pendingWith .permIp 0x0123456789ABCDEF)) = some (0xCC00CCFFF0AAF0AA, 0) := by
  decide +kernel
/-- V13b. -/
theorem test_permFp :
    results (step (pendingWith .permFp 0x0123456789ABCDEF)) = some (0xFF330FAA00330FAA, 0) := by
  decide +kernel
/-- V15c: DIN[63:32] is ignored. -/
theorem test_permE :
    results (step (pendingWith .permE 0xFFFFFFFF12345678)) = some (0x00000A41A82AC3F0, 0) := by
  decide +kernel
/-- V16d. -/
theorem test_permP :
    results (step (pendingWith .permP 0x12345678)) = some (0x6E34140E, 0) := by decide +kernel
/-- V17. -/
theorem test_permPc1 :
    results (step (pendingWith .permPc1 0x133457799BBCDFF1)) = some (0x00F0CCAAF556678F, 0) := by
  decide +kernel
/-- V18 with DIN[63:56] set, which is ignored (V18c). -/
theorem test_permPc2 :
    results (step (pendingWith .permPc2 0xFFE19955FAACCF1E)) = some (0x00001B02EFFC7072, 0) := by
  decide +kernel
/-- V26. -/
theorem test_sbox :
    results (step (pendingWith .sbox 0x6117BA866527)) = some (0x5C82B597, 0) := by decide +kernel
/-- V24b: the leftmost bit of a group is the high row bit. -/
theorem test_sbox_row :
    results (step (pendingWith .sbox 0x800000000000)) = some (0x4FA72C4D, 0) := by decide +kernel
/-- V27c. -/
theorem test_ffunc :
    results (step (pendingWith (.ffunc 15) 0)) = some (0xE9D19DD8, 0) := by decide +kernel

/-! ### The host's transactions -/

/-- STATUS, DOUT and PEND after one step. -/
def statusAfter (o : Host.Outcome State Fault Refusal) : Option (Word × Word × Option Instr) :=
  match o with
  | .next s => some (hostRead .status s, s.dout, s.pend)
  | .fault _ => none
  | .refused _ => none

/-- V52: NO_KEY. -/
theorem test_issue_noKey :
    statusAfter (step { State.reset with script := [.write .cmd 0x10] }) = some (0x24, 0, none) := by
  decide
/-- V52d: ILLEGAL_CMD wins over NO_KEY. -/
theorem test_issue_illegal :
    statusAfter (step { State.reset with script := [.write .cmd 0x110] }) = some (0x14, 0, none) := by
  decide
/-- V53: BUSY_WRITE wins over ILLEGAL_CMD, and the NOP stays pending. -/
theorem test_issue_busy :
    statusAfter (step { State.reset with
      pend := some .nop, turns := [.host], script := [.write .cmd 3] }) =
      some (0x35, 0, some .nop) := by decide
/-- V52a: BAD_WRITE. -/
theorem test_write_dout :
    statusAfter (step { State.reset with script := [.write .dout 5] }) = some (0x44, 0, none) := by
  decide
/-- V54a, V54b: only bit 2 of a STATUS write clears. -/
theorem test_write_status :
    statusAfter (step { State.reset with
      err := true, ecode := .noKey, script := [.write .status 0xFFFFFFFFFFFFFFFB] }) =
      some (0x24, 0, none) ∧
    statusAfter (step { State.reset with
      err := true, ecode := .noKey, script := [.write .status 4] }) = some (0x00, 0, none) := by
  decide
/-- R223: WAIT goes on while BUSY = 1. -/
theorem test_wait_busy :
    (match step { State.reset with pend := some .nop, turns := [.host], script := [.wait] } with
      | .next s => s.script
      | _ => []) = [.wait] := by decide
/-- V4, V46, V59: the block reader. -/
theorem test_readBlock :
    readBlock .low [0xAA, 0xBB, 0xCC] 0 = (0x0000000000AABBCC, 3) ∧
    readBlock .high [0xAA, 0xBB, 0xCC] 0 = (0xAABBCC0000000000, 3) ∧
    readBlock .low [] 0 = (0, 0) := by decide +kernel
/-- R89, R90. -/
theorem test_assembly :
    assembleProgram [.ldkey 5, .run (.ffunc 15)] =
      [.write .key 5, .write .cmd 1, .wait, .write .cmd 0xF27, .wait] := rfl
/-- withFetchWord: the next step performs the command, and refuses an illegal word. -/
theorem test_withFetchWord :
    step (State.reset.withFetchWord 64 0x527) = exec (.ffunc 5) (State.reset.withFetchWord 64 0x527) ∧
    statusAfter (step (State.reset.withFetchWord 64 0x110)) = some (0x14, 0, none) :=
  ⟨rfl, by decide⟩

/-! ### Witnesses: states and operands that meet the hypotheses of the statements -/

theorem witness_DecodeIffEncode : decode 0xF28 = .ok (.rkrd 15) := rfl
theorem witness_IllegalWords :
    (∃ e, decode 0xF10 = .error e) ∧ State.reset.pend = none ∧
    (∃ i, decode 0x02 = .ok i) ∧ (∃ e, decode 0x03 = .error e) ∧ (∃ e, decode 0x0F = .error e) ∧
    (∃ i, decode 0x10 = .ok i) ∧ (∃ i, decode 0x15 = .ok i) ∧ (∃ e, decode 0x16 = .error e) ∧
    (∃ e, decode 0x1F = .error e) ∧ (∃ i, decode 0x20 = .ok i) ∧ (∃ i, decode 0x28 = .ok i) ∧
    (∃ e, decode 0x29 = .error e) :=
  ⟨⟨_, rfl⟩, rfl, ⟨_, rfl⟩, ⟨_, rfl⟩, ⟨_, rfl⟩, ⟨_, rfl⟩, ⟨_, rfl⟩, ⟨_, rfl⟩, ⟨_, rfl⟩, ⟨_, rfl⟩,
    ⟨_, rfl⟩, ⟨_, rfl⟩⟩
theorem witness_PermuteLinear : tableE.length = 48 ∧ ∀ p ∈ tableE, 1 ≤ p ∧ p ≤ 32 := by decide
theorem witness_EqualRoundKeys : ∀ i : Fin 16, State.reset.ks[i] = 0 := by decide
theorem witness_CipherDependsOnDinAndKs :
    State.reset.din = ({ State.reset with key := 1 } : State).din ∧
    State.reset.ks = ({ State.reset with key := 1 } : State).ks := ⟨rfl, rfl⟩
theorem witness_BlockReaderWriter :
    ([] : List Byte).length ≤ 8 ∧ ([1, 2, 3, 4, 5, 6, 7, 8] : List Byte).length ≤ 8 := by decide

/-- "Now is t", twice. -/
def twoChunks : List Byte :=
  [0x4E, 0x6F, 0x77, 0x20, 0x69, 0x73, 0x20, 0x74, 0x4E, 0x6F, 0x77, 0x20, 0x69, 0x73, 0x20, 0x74]

theorem witness_StreamRoundTrip : twoChunks.length % 8 = 0 := by decide
theorem witness_EcbDeterminism :
    8 * 0 + 8 ≤ twoChunks.length ∧ 8 * 1 + 8 ≤ twoChunks.length ∧
    memRead twoChunks (8 * 0) 8 = memRead twoChunks (8 * 1) 8 := by decide
/-- A change in chunk 0 of two. -/
theorem witness_ChangeStaysLocal :
    twoChunks.length = (0xCE :: twoChunks.tail).length ∧
    (∀ j, j ≠ 0 → memRead twoChunks (8 * j) 8 = memRead (0xCE :: twoChunks.tail) (8 * j) 8) ∧
    twoChunks ≠ 0xCE :: twoChunks.tail := by
  refine ⟨by decide, fun j hj => ?_, by decide⟩
  obtain ⟨n, rfl⟩ := Nat.exists_eq_succ_of_ne_zero hj
  rfl
theorem witness_StreamProcedureOnDevice :
    ∃ s : State, s.pend = none ∧ s.script = streamScript .cbcEncrypt .low twoChunks [] 5 ∧
      s.turns = [.host, .core] ∧ ∀ t ∈ s.turns, t ≠ Turn.reset :=
  ⟨{ State.reset with
      script := streamScript .cbcEncrypt .low twoChunks [] 5, turns := [.host, .core] },
    rfl, rfl, rfl, by decide⟩
/-- The last slot, and the first offset and a width outside. -/
theorem witness_BusAccesses :
    (BusAccess.mk 0x38 64 none).offset = 8 * Slot.reserved7.index.val ∧
    ¬((BusAccess.mk 0x40 64 none).width = 64 ∧
      ∃ i : Fin 8, (BusAccess.mk 0x40 64 none).offset = 8 * i.val) ∧
    ¬((BusAccess.mk 0x38 32 none).width = 64 ∧
      ∃ i : Fin 8, (BusAccess.mk 0x38 32 none).offset = 8 * i.val) := by decide
theorem witness_IssueChecks :
    (pendingWith .nop 0).pend ≠ none ∧
    (State.reset.pend = none ∧ ∃ e, decode 0x03 = .error e) ∧
    (State.reset.pend = none ∧ decode 0x10 = .ok .enc ∧ State.reset.kv = false) ∧
    (State.reset.pend = none ∧ decode 0x02 = .ok .keyldCmp ∧ needsKV .keyldCmp = false) ∧
    ({ pendingWith .nop 0 with pend := none } : State).kv = true :=
  ⟨by decide, ⟨rfl, _, rfl⟩, ⟨rfl, rfl, rfl⟩, ⟨rfl, rfl, rfl⟩, rfl⟩
theorem witness_StepRunsDecoded :
    ∃ s : State, decode 0x10 = .ok .enc ∧ s.pend = none ∧ s.kv = true ∧ s.turns = [] :=
  ⟨{ pendingWith .nop 0 with pend := none }, rfl, rfl, rfl, rfl⟩
theorem witness_CoreTurn : State.reset.pend = none ∧ (pendingWith .enc 0).pend = some .enc ∧
    ∃ t, step ((pendingWith .enc 0).turnOf .core) = .next t := ⟨rfl, rfl, _, rfl⟩
theorem witness_NopPulse : State.reset.pend = none := rfl
theorem witness_EveryCommandCompletes :
    Instr.keyldCmp ∈ [Instr.nop, .keyldRaw, .keyldCmp] ∧
    Instr.enc ∉ [Instr.cbcEnc, .cbcDec, .cfbEnc, .cfbDec] ∧
    Instr.enc ∉ [Instr.keyldRaw, .keyldCmp] := by decide

/-- A pending ENC while the host still polls, and the host's turns are listed first. -/
def busyHost : State :=
  { pendingWith .enc 1 with turns := [.host, .host], script := [.wait, .bus ⟨0x18, 64, some 7⟩] }

theorem witness_PendingCompletes :
    busyHost.pend = some .enc ∧ (∃ r, exec .enc busyHost = .next r) ∧
    (∀ t ∈ busyHost.turns, t ≠ Turn.reset) ∧
    (∀ a, HostOp.bus a ∈ busyHost.script → a.wellFormed = true) := by
  refine ⟨rfl, ⟨_, rfl⟩, by decide, fun a ha => ?_⟩
  have h : a = ⟨0x18, 64, some 7⟩ := by simpa [busyHost] using ha
  rw [h]
  decide
theorem witness_PendingProtected :
    busyHost.pend = some .enc ∧ nextTurn busyHost = .host ∧ ∃ t, step busyHost = .next t :=
  ⟨rfl, rfl, _, rfl⟩
theorem witness_WriteRacesCompletion :
    (∃ r, exec .enc busyHost = .next r ∧ r.kv = true) ∧ busyHost.pend = some .enc ∧
    decode 0x10 = .ok .enc := ⟨⟨_, rfl, rfl⟩, rfl, rfl⟩

/-- A raw key load about to complete. -/
def loading : State := { State.reset with key := 3, pend := some .keyldRaw }

theorem witness_KvChanges :
    (∃ t, step loading = .next t ∧ loading.kv = false ∧ t.kv = true) ∧
    (∃ t, step ((pendingWith .enc 1).turnOf .reset) = .next t ∧ t.kv = false) :=
  ⟨⟨_, rfl, rfl, rfl⟩, ⟨_, rfl, rfl⟩⟩
theorem witness_KsChanges : ∃ t, step loading = .next t ∧ nextTurn loading = .core :=
  ⟨_, rfl, rfl⟩
/-- A completion that changes DOUT and CHAIN, and a host write of CHAIN. -/
theorem witness_DoutChainChanges :
    (∃ t, step (chainedWith .cbcEnc 1 2) = .next t ∧ nextTurn (chainedWith .cbcEnc 1 2) ≠ .reset) ∧
    (results (step (chainedWith .cbcEnc 1 2)) ≠ some (0, 1)) ∧
    (∃ t, step (State.reset.hostDoes (.write .chain 9)) = .next t ∧ t.chain = 9) :=
  ⟨⟨_, rfl, by decide⟩, by decide +kernel, ⟨_, rfl, rfl⟩⟩
theorem witness_KeyDinChanges :
    (∃ t, step (State.reset.hostDoes (.write .key 9)) = .next t ∧ t.key ≠ State.reset.key) ∧
    (∃ t, step (State.reset.hostDoes (.write .din 9)) = .next t ∧ t.din ≠ State.reset.din) ∧
    nextTurn (State.reset.hostDoes (.write .din 9)) ≠ .reset :=
  ⟨⟨_, rfl, by decide⟩, ⟨_, rfl, by decide⟩, by decide⟩
theorem witness_RaiseEffect :
    ∃ t, step (State.reset.hostDoes (.write .dout 5)) = .next t ∧ t.raised ≠ State.reset.raised :=
  ⟨_, rfl, by decide⟩
/-- An error kept, and an error cleared. -/
theorem witness_ErrorRecordSticky :
    ∃ s : State, s.err = true ∧ (∃ t, step (s.hostDoes (.write .dout 5)) = .next t ∧ t.err = true) ∧
      ∃ t, step (s.hostDoes (.write .status 4)) = .next t ∧ t.err = false :=
  ⟨{ State.reset with err := true, ecode := .noKey }, rfl, ⟨_, rfl, rfl⟩, _, rfl, rfl⟩
/-- Bit 2 set, the conditions of each of the four errors, and an event that raises one while ERR = 0. -/
theorem witness_ClearAndRecordAfresh :
    (0x4 : Word).getLsbD 2 = true ∧ Slot.reserved7 ∈ [Slot.dout, .reserved6, .reserved7] ∧
    ((pendingWith .nop 0).pend ≠ none ∧ Slot.chain ∈ [Slot.cmd, .key, .din, .chain]) ∧
    (State.reset.pend = none ∧ ∃ e, decode 0x29 = .error e) ∧
    (State.reset.pend = none ∧ decode 0xF28 = .ok (.rkrd 15) ∧ needsKV (.rkrd 15) = true ∧
      State.reset.kv = false) ∧
    State.reset.err = false ∧
    ∃ t, step (State.reset.hostDoes (.write .dout 5)) = .next t ∧ t.raised ≠ State.reset.raised :=
  ⟨by decide, by decide, ⟨by decide, by decide⟩, ⟨rfl, _, rfl⟩, ⟨rfl, rfl, rfl, rfl⟩, rfl, _, rfl,
    by decide⟩
theorem witness_IdleKeepsState :
    ∃ t, State.reset.pend = none ∧ nextTurn State.reset ≠ .reset ∧ nextWrite State.reset = none ∧
      step State.reset = .next t := ⟨_, rfl, by decide, rfl, rfl⟩
theorem witness_KsUnobservable :
    ∃ t, loading.kv = false ∧ (∀ d, loading.pend = some d → needsKV d = false) ∧
      step loading = .next t :=
  ⟨_, rfl, fun _ h => by cases h; rfl, rfl⟩
/-- A state with Inv in which the command pending reads KS. -/
theorem witness_InvKept :
    ∃ t, State.Inv (chainedWith .cbcEnc 1 2) ∧ step (chainedWith .cbcEnc 1 2) = .next t :=
  ⟨_, ⟨fun _ => ⟨_, rfl⟩, fun _ _ _ => rfl, by decide, fun h => by cases h⟩, rfl⟩

end Sys2Proof.Tests
end

section
/-! PROOFS. The register file and the flags (10_state.md): what the host's turn gives, what each event
changes, and the device's invariant. -/
namespace Sys2Proof.Machine

/-! ### One event of the host -/

/-- A host read placed next is carried out by the next step, and leaves only its value behind. -/
@[simp] theorem step_hostDoes_read (r : Slot) (s : State) :
    step (s.hostDoes (.read r)) = .next (logRead (hostRead r s) s) := rfl

/-- A host write placed next is carried out by the next step. -/
@[simp] theorem step_hostDoes_write (r : Slot) (v : Word) (s : State) :
    step (s.hostDoes (.write r v)) = .next (hostWrite r v s) := rfl

/-- Bit 0 of STATUS is BUSY (R23). -/
theorem statusWord_getLsbD_zero (s : State) : (statusWord s).getLsbD 0 = s.busy := by
  rw [statusWord, BitVec.getLsbD_setWidth, BitVec.getLsbD_append]
  simp

/-- Settles O34: bit 0 of STATUS is BUSY, and BUSY is that PEND holds a command. -/
theorem busyIsPending : Obligations.BusyIsPending := by
  intro s
  rw [hostRead, statusWord_getLsbD_zero, State.busy, Option.isSome_iff_ne_none]

/-- Settles O36: both slots read 0, and a write of either is raise BAD_WRITE. -/
theorem reservedSlots : Obligations.ReservedSlots := by
  intro s v r hr
  rw [step_hostDoes_read, step_hostDoes_write]
  obtain rfl | rfl : r = .reserved6 ∨ r = .reserved7 := by simpa using hr
  · exact ⟨rfl, rfl⟩
  · exact ⟨rfl, rfl⟩

/-! ### One event, by what it does to the device -/

/-- One step leaves the device and the error record alone, or it is a reset, the completion of the
pending command, or a register write of the host. -/
theorem step_device_cases {s t : State} (h : step s = .next t) :
    (∃ script turns reads, t = { s with script := script, turns := turns, reads := reads }) ∨
    (nextTurn s = .reset ∧ t = resetDevice (popTurn s)) ∨
    (∃ d, nextTurn s = .core ∧ s.pend = some d ∧ exec d (popTurn s) = .next t) ∨
    (∃ r v, nextTurn s = .host ∧ nextWrite s = some (r, v) ∧
      t = hostWrite r v (popScript (popTurn s))) := by
  obtain hreset | ⟨-, -, rfl⟩ | hcore | ⟨hn, hhost⟩ := step_cases h
  · exact .inr (.inl hreset)
  · exact .inl ⟨_, _, _, rfl⟩
  · exact .inr (.inr (.inl hcore))
  · obtain rfl | ⟨-, rfl⟩ | ⟨r, rfl⟩ | ⟨r, v, hw, rfl⟩ := hostTurn_cases hhost
    · exact .inl ⟨_, _, _, rfl⟩
    · exact .inl ⟨_, _, _, rfl⟩
    · exact .inl ⟨_, _, _, rfl⟩
    · exact .inr (.inr (.inr ⟨r, v, hn, hw, rfl⟩))

/-! ### KV and KS -/

/-- No host write changes KS or KV (R25, R66). -/
theorem hostWrite_ks_kv (r : Slot) (v : Word) (s : State) :
    (hostWrite r v s).ks = s.ks ∧ (hostWrite r v s).kv = s.kv := by
  obtain ⟨e, -, h⟩ | ⟨-, -, h⟩ | ⟨-, -, h⟩ | ⟨-, -, h⟩ | ⟨d, -, -, -, -, h⟩ | ⟨-, -, h⟩ | ⟨-, -, h⟩ :=
    hostWrite_cases r v s
  all_goals rw [h]; exact ⟨rfl, rfl⟩

/-- A step leaves KS and KV, or is a reset and clears KV, or completes a key load, which sets KV and
KS together. -/
theorem step_ks_kv {s t : State} (h : step s = .next t) :
    (t.ks = s.ks ∧ t.kv = s.kv) ∨
    (nextTurn s = .reset ∧ t.kv = false) ∨
    (nextTurn s = .core ∧ s.pend = some .keyldRaw ∧
      t.ks = keySchedule (permPC1 s.key) ∧ t.kv = true) ∨
    (nextTurn s = .core ∧ s.pend = some .keyldCmp ∧
      t.ks = keySchedule (compressedKey s) ∧ t.kv = true) := by
  obtain ⟨_, _, _, rfl⟩ | ⟨hn, rfl⟩ | ⟨d, hn, hd, he⟩ | ⟨r, v, -, -, rfl⟩ := step_device_cases h
  · exact .inl ⟨rfl, rfl⟩
  · exact .inr (.inl ⟨hn, rfl⟩)
  · obtain ⟨-, hkeep | ⟨rfl, hload⟩ | ⟨rfl, hload⟩⟩ := exec_cases he
    · exact .inl hkeep
    · exact .inr (.inr (.inl ⟨hn, hd, hload⟩))
    · exact .inr (.inr (.inr ⟨hn, hd, hload⟩))
  · exact .inl (hostWrite_ks_kv r v _)

/-- Settles O46, by the cases of what a step does to KV. -/
theorem kvChanges : Obligations.KvChanges := by
  intro s t h
  obtain ⟨-, hkv⟩ | ⟨hn, hkv⟩ | ⟨hn, hd, -, hkv⟩ | ⟨hn, hd, -, hkv⟩ := step_ks_kv h
  · constructor <;> intro hs ht <;> simp [hkv, hs] at ht
  · simp [hn, hkv]
  · simp [hn, hd, hkv]
  · simp [hn, hd, hkv]

/-- Settles O47, by the cases of what a step does to KS. -/
theorem ksChanges : Obligations.KsChanges := by
  intro s t h
  obtain ⟨hks, -⟩ | ⟨hn, -⟩ | ⟨hn, hd, hks, -⟩ | ⟨hn, hd, hks, -⟩ := step_ks_kv h
  · exact .inl hks
  · exact .inr (.inl hn)
  · exact .inr (.inr (.inl ⟨hn, hd, hks⟩))
  · exact .inr (.inr (.inr ⟨hn, hd, hks⟩))

/-! ### The registers KEY, DIN, DOUT and CHAIN -/

/-- The registers in which a command's completion leaves a result (R40). -/
def resultSlots : Instr → List Slot
  | .nop | .keyldRaw | .keyldCmp => []
  | .cbcEnc | .cbcDec | .cfbEnc | .cfbDec => [.dout, .chain]
  | .enc | .dec | .permIp | .permFp | .permE | .permP | .permPc1 | .permPc2 | .sbox | .ffunc _
  | .rkrd _ => [.dout]

theorem not_mem_of_dout_mem_resultSlots {d : Instr} (h : Slot.dout ∈ resultSlots d) :
    d ∉ [Instr.nop, .keyldRaw, .keyldCmp] := by
  cases d <;> simp_all [resultSlots]

theorem mem_of_chain_mem_resultSlots {d : Instr} (h : Slot.chain ∈ resultSlots d) :
    d ∈ [Instr.cbcEnc, .cbcDec, .cfbEnc, .cfbDec] := by
  cases d <;> simp_all [resultSlots]

theorem mem_of_mem_resultSlots {d : Instr} {q : Slot} (h : q ∈ resultSlots d) :
    q ∈ [Slot.dout, .chain] := by
  cases d <;> simp_all [resultSlots]

/-- What a read of a slot other than STATUS returns depends on that register only (R52). -/
theorem hostRead_congr {q : Slot} {s t : State} (hq : q ≠ .status)
    (hkey : q = .key → t.key = s.key) (hdin : q = .din → t.din = s.din)
    (hdout : q = .dout → t.dout = s.dout) (hchain : q = .chain → t.chain = s.chain) :
    hostRead q t = hostRead q s := by
  cases q <;> simp_all [hostRead]

/-- A completion leaves DOUT and CHAIN where they are not among its results (R40). -/
theorem exec_dout_chain {d : Instr} {s t : State} (h : exec d s = .next t) :
    (.dout ∉ resultSlots d → t.dout = s.dout) ∧ (.chain ∉ resultSlots d → t.chain = s.chain) := by
  cases d <;> cases h <;> simp [resultSlots]

/-- A completion leaves every register but its results and STATUS (R40). -/
theorem hostRead_exec {d : Instr} {q : Slot} {s t : State} (h : exec d s = .next t)
    (hq : q ≠ .status) (hd : q ∉ resultSlots d) : hostRead q t = hostRead q s := by
  obtain ⟨ht, -⟩ := exec_cases h
  obtain ⟨hdout, hchain⟩ := exec_dout_chain h
  exact hostRead_congr hq (fun _ => by rw [ht]) (fun _ => by rw [ht])
    (fun hqd => hdout (hqd ▸ hd)) (fun hqc => hchain (hqc ▸ hd))

/-- A host write leaves a register other than STATUS, or is a write of that operand register, done
while no command is pending (R53). -/
theorem hostRead_hostWrite {q : Slot} (r : Slot) (v : Word) (s : State) (hq : q ≠ .status) :
    hostRead q (hostWrite r v s) = hostRead q s ∨
    (s.pend = none ∧ r = q ∧ q ∈ [Slot.key, .din, .chain] ∧ hostRead q (hostWrite r v s) = v) := by
  rw [← busy_eq_false_iff]
  obtain ⟨e, -, h⟩ | ⟨hb, rfl, h⟩ | ⟨hb, rfl, h⟩ | ⟨hb, rfl, h⟩ | ⟨d, -, -, -, -, h⟩ | ⟨-, -, h⟩ |
    ⟨-, -, h⟩ := hostWrite_cases r v s <;> rw [h]
  · exact .inl (hostRead_congr hq (fun _ => rfl) (fun _ => rfl) (fun _ => rfl) (fun _ => rfl))
  · cases q <;> simp [hostRead, hb] at hq ⊢
  · cases q <;> simp [hostRead, hb] at hq ⊢
  · cases q <;> simp [hostRead, hb] at hq ⊢
  · exact .inl (hostRead_congr hq (fun _ => rfl) (fun _ => rfl) (fun _ => rfl) (fun _ => rfl))
  · exact .inl (hostRead_congr hq (fun _ => rfl) (fun _ => rfl) (fun _ => rfl) (fun _ => rfl))
  · exact .inl rfl

/-- But for a reset, a register other than STATUS changes only by a host write of that operand
register while no command is pending, or as a result of the completion of a command. -/
theorem step_register_changes {q : Slot} {s t : State} (h : step s = .next t)
    (hreset : nextTurn s ≠ .reset) (hq : q ≠ .status) (hne : hostRead q t ≠ hostRead q s) :
    (nextTurn s = .host ∧ s.pend = none ∧ q ∈ [Slot.key, .din, .chain] ∧
      nextWrite s = some (q, hostRead q t)) ∨
    (nextTurn s = .core ∧ ∃ d, s.pend = some d ∧ q ∈ resultSlots d) := by
  have hpop : hostRead q (popTurn s) = hostRead q s := by cases q <;> rfl
  obtain ⟨_, _, _, rfl⟩ | ⟨hn, -⟩ | ⟨d, hn, hd, he⟩ | ⟨r, v, hn, hw, rfl⟩ := step_device_cases h
  · exact absurd (by cases q <;> rfl) hne
  · exact absurd hn hreset
  · refine .inr ⟨hn, d, hd, ?_⟩
    by_contra hmem
    exact hne ((hostRead_exec he hq hmem).trans hpop)
  · rw [← hpop, ← hostRead_popScript] at hne
    obtain hkeep | ⟨hidle, rfl, hmem, hv⟩ := hostRead_hostWrite r v (popScript (popTurn s)) hq
    · exact absurd hkeep hne
    · exact .inl ⟨hn, hidle, hmem, by rw [hw, hv]⟩

/-- Settles O48, by the registers that a command's completion and a host write can change. -/
theorem doutChainChanges : Obligations.DoutChainChanges := by
  intro s t h hreset
  constructor
  · intro hne
    obtain ⟨-, -, hmem, -⟩ | ⟨hn, d, hd, hmem⟩ :=
      step_register_changes (q := .dout) h hreset (by decide) hne
    · exact absurd hmem (by decide)
    · exact ⟨hn, d, hd, not_mem_of_dout_mem_resultSlots hmem⟩
  · intro hne
    obtain ⟨hn, hidle, -, hw⟩ | ⟨hn, d, hd, hmem⟩ :=
      step_register_changes (q := .chain) h hreset (by decide) hne
    · exact .inr ⟨hn, hidle, hw⟩
    · exact .inl ⟨hn, d, mem_of_chain_mem_resultSlots hmem, hd⟩

/-- But for a reset, a register that is no command's result and not STATUS changes only by a host
write of it while no command is pending. -/
theorem step_operand_changes {q : Slot} {s t : State} (h : step s = .next t)
    (hreset : nextTurn s ≠ .reset) (hq : q ∉ [Slot.status, .dout, .chain])
    (hne : hostRead q t ≠ hostRead q s) :
    nextTurn s = .host ∧ s.pend = none ∧ nextWrite s = some (q, hostRead q t) := by
  obtain ⟨hstatus, hresult⟩ := not_or.mp (mt List.mem_cons.mpr hq)
  obtain ⟨hn, hidle, -, hw⟩ | ⟨-, d, -, hmem⟩ := step_register_changes h hreset hstatus hne
  · exact ⟨hn, hidle, hw⟩
  · exact absurd (mem_of_mem_resultSlots hmem) hresult

/-- Settles O49: KEY and DIN are no command's results. -/
theorem keyDinChanges : Obligations.KeyDinChanges := fun _ _ h hreset =>
  ⟨step_operand_changes (q := .key) h hreset (by decide),
    step_operand_changes (q := .din) h hreset (by decide)⟩

/-! ### The error record -/

/-- While ERR = 1, a host write leaves ERR and ECODE, unless it writes STATUS with the clearing bit
set (R232, R236). -/
theorem hostWrite_err_ecode (r : Slot) (v : Word) {s : State} (herr : s.err = true) :
    ((hostWrite r v s).err = true ∧ (hostWrite r v s).ecode = s.ecode) ∨
    (r = .status ∧ clearsError v = true ∧ hostWrite r v s = clearError s) := by
  obtain ⟨e, -, h⟩ | ⟨-, -, h⟩ | ⟨-, -, h⟩ | ⟨-, -, h⟩ | ⟨d, -, -, -, -, h⟩ | hclear | ⟨-, -, h⟩ :=
    hostWrite_cases r v s
  case inr.inr.inr.inr.inr.inl => exact .inr hclear
  all_goals exact .inl (by simp [h, herr])

/-- Settles O51, by the events that touch the error record: a reset and a host write. -/
theorem errorRecordSticky : Obligations.ErrorRecordSticky := by
  intro s t h herr
  obtain ⟨_, _, _, rfl⟩ | ⟨hn, rfl⟩ | ⟨d, -, -, he⟩ | ⟨r, v, hn, hw, rfl⟩ := step_device_cases h
  · exact .inl ⟨herr, rfl⟩
  · exact .inr ⟨rfl, rfl, .inl hn⟩
  · obtain ⟨ht, -⟩ := exec_cases he
    exact .inl (by rw [ht]; exact ⟨herr, rfl⟩)
  · obtain hkeep | ⟨rfl, hv, hclear⟩ :=
      hostWrite_err_ecode r v (s := popScript (popTurn s)) herr
    · exact .inl hkeep
    · exact .inr ⟨by simp [hclear], by simp [hclear], .inr ⟨hn, v, hv, hw⟩⟩

/-! ### The invariant -/

/-- Inv holds while no key is loaded, no command is pending and no error is recorded. -/
theorem State.Inv.of_cleared {s : State} (hkv : s.kv = false) (hpend : s.pend = none)
    (herr : s.err = false) (hecode : s.ecode = .none) : s.Inv where
  scheduleLoaded := by simp [hkv]
  keyForPending := by simp [hpend]
  errorCode := by simp [herr, hecode]
  errorRaised := by simp [herr]

/-- Settles O56: at reset KV = 0, no command is pending, and no error is recorded. -/
theorem invAtReset : Obligations.InvAtReset := State.Inv.of_cleared rfl rfl rfl rfl

/-- Inv speaks of KS, KV, PEND and the error record only. -/
theorem State.Inv.withOthers {s : State} (hi : s.Inv) (key din dout chain : Word)
    (script : List HostOp) (turns : List Turn) (reads : List Word) (resets : Nat) :
    State.Inv { s with
      key := key, din := din, dout := dout, chain := chain
      script := script, turns := turns, reads := reads, resets := resets } :=
  ⟨hi.scheduleLoaded, hi.keyForPending, hi.errorCode, hi.errorRaised⟩

/-- Raising an error keeps Inv: the code recorded is never none (R230, R232). -/
theorem State.Inv.raise {s : State} (hi : s.Inv) {e : ErrCode} (he : e ≠ .none) :
    (raise e s).Inv where
  scheduleLoaded := hi.scheduleLoaded
  keyForPending := hi.keyForPending
  errorCode := by
    have hcode := hi.errorCode
    cases herr : s.err <;> simp_all
  errorRaised _ := by simp

/-- Clearing the record keeps Inv: ERR and ECODE are cleared together (R236). -/
theorem State.Inv.clearError {s : State} (hi : s.Inv) : (clearError s).Inv where
  scheduleLoaded := hi.scheduleLoaded
  keyForPending := hi.keyForPending
  errorCode := ⟨fun _ => rfl, fun _ => rfl⟩
  errorRaised herr := by cases herr

/-- Accepting a command keeps Inv, by the check of KV at its issue (R220). -/
theorem State.Inv.accept {s : State} (hi : s.Inv) {d : Instr} (hk : needsKV d = true → s.kv = true) :
    (accept d s).Inv where
  scheduleLoaded := hi.scheduleLoaded
  keyForPending d' hd' hneeds := by
    obtain rfl : d = d' := by simpa using hd'
    exact hk hneeds
  errorCode := hi.errorCode
  errorRaised := hi.errorRaised

/-- A reset gives Inv from any state (R260). -/
theorem inv_resetDevice (s : State) : (resetDevice s).Inv := State.Inv.of_cleared rfl rfl rfl rfl

/-- Every register write keeps Inv. -/
theorem State.Inv.hostWrite {s : State} (hi : s.Inv) (r : Slot) (v : Word) :
    (hostWrite r v s).Inv := by
  obtain ⟨e, he, h⟩ | ⟨-, -, h⟩ | ⟨-, -, h⟩ | ⟨-, -, h⟩ | ⟨d, -, -, -, hk, h⟩ | ⟨-, -, h⟩ | ⟨-, -, h⟩ :=
    hostWrite_cases r v s <;> rw [h]
  · exact hi.raise he
  · exact hi.withOthers ..
  · exact hi.withOthers ..
  · exact hi.withOthers ..
  · exact hi.accept hk
  · exact hi.clearError
  · exact hi

/-- Every completion keeps Inv: KV is set only together with a schedule, nothing is pending
afterwards, and the error record stays (R25, R221). -/
theorem State.Inv.exec {s t : State} (hi : s.Inv) {d : Instr} (h : exec d s = .next t) : t.Inv := by
  obtain ⟨ht, hload⟩ := exec_cases h
  have hschedule : t.kv = true → ∃ k : CompressedKey, t.ks = keySchedule k := by
    obtain ⟨hks, hkv⟩ | ⟨-, hks, -⟩ | ⟨-, hks, -⟩ := hload
    · rw [hks, hkv]
      exact hi.scheduleLoaded
    · exact fun _ => ⟨_, hks⟩
    · exact fun _ => ⟨_, hks⟩
  rw [ht]
  exact ⟨hschedule, fun _ hd => (nomatch hd), hi.errorCode, hi.errorRaised⟩

/-- Settles O57: a reset, a completion and a host write each keep Inv, and the other events change
nothing it speaks of. -/
theorem invKept : Obligations.InvKept := by
  intro s t hi h
  obtain ⟨_, _, _, rfl⟩ | ⟨-, rfl⟩ | ⟨d, -, -, he⟩ | ⟨r, v, -, -, rfl⟩ := step_device_cases h
  · exact hi.withOthers ..
  · exact inv_resetDevice _
  · exact State.Inv.exec (s := popTurn s) (hi.withOthers ..) he
  · exact State.Inv.hostWrite (s := popScript (popTurn s)) (hi.withOthers ..) r v

end Sys2Proof.Machine
end

section
/-! PROOFS. The host's side of the device (20_memory.md): the block reader and writer, raw accesses at
the bus, and what a read and a write of each slot do. -/
namespace Sys2Proof.Machine

/-! ### The block reader and writer (R55 to R59) -/

/-- The reader takes in one more byte (R57). -/
theorem stackBytes_concat (bs : List Byte) (b : Byte) :
    stackBytes (bs ++ [b]) = stackBytes bs * 256 + b.setWidth 64 := by
  simp [stackBytes]

/-- A byte of a word, as a number. -/
theorem toNat_byte (v : Word) (i : Nat) : (v.extractLsb' i 8).toNat = v.toNat / 2 ^ i % 256 := by
  rw [BitVec.extractLsb'_toNat, Nat.shiftRight_eq_div_pow]

/-- A byte taken in at the right pushes the first byte of the block out at the left. -/
theorem blockToBytes_mul_add (v : Word) (b : Byte) :
    blockToBytes (v * 256 + b.setWidth 64) = (blockToBytes v).tail ++ [b] := by
  have hb : b.toNat < 256 := b.isLt
  have hnext : (v * 256 + b.setWidth 64).toNat = (v.toNat * 256 + b.toNat) % 2 ^ 64 := by
    simp [BitVec.toNat_add, BitVec.toNat_mul]
  simp only [blockToBytes, List.tail_cons, List.cons_append, List.nil_append, List.cons.injEq,
    and_true, ← BitVec.toNat_inj, toNat_byte, hnext]
  omega

/-- The bytes of what the reader accumulates from zero are the last 8 it took in. -/
theorem blockToBytes_stackBytes (bs : List Byte) :
    blockToBytes (stackBytes bs) = (List.replicate 8 0 ++ bs).drop bs.length := by
  induction bs using List.reverseRecOn with
  | nil => rfl
  | append_singleton bs b ih =>
    have hlen : bs.length + 1 ≤ (List.replicate 8 (0 : Byte) ++ bs).length := by
      simp only [List.length_append, List.length_replicate]
      omega
    rw [stackBytes_concat, blockToBytes_mul_add, ih, List.tail_drop, List.length_append,
      List.length_singleton, ← List.append_assoc, List.drop_append_of_le_length hlen]

/-- What lies above a byte of a word, with that byte taken in at the right. -/
theorem ushiftRight_mul_add_byte (v : Word) (i : Nat) :
    (v >>> (i + 8)) * 256 + (v.extractLsb' i 8).setWidth 64 = v >>> i := by
  have hv : v.toNat / 2 ^ i < 2 ^ 64 := (Nat.div_le_self _ _).trans_lt v.isLt
  apply BitVec.eq_of_toNat_eq
  simp only [BitVec.toNat_add, BitVec.toNat_mul, BitVec.toNat_setWidth, BitVec.toNat_ushiftRight,
    BitVec.reduceToNat, toNat_byte, Nat.shiftRight_eq_div_pow, Nat.pow_add,
    ← Nat.div_div_eq_div_mul]
  omega

/-- Stacking the bytes of a block gives the block (R59). -/
theorem stackBytes_blockToBytes (v : Word) : stackBytes (blockToBytes v) = v := by
  have htop : (0 : Word) = v >>> (56 + 8) := by bv_omega
  simp only [stackBytes, blockToBytes, List.foldl_cons, List.foldl_nil]
  rw [htop, ushiftRight_mul_add_byte v 56, ushiftRight_mul_add_byte v 48,
    ushiftRight_mul_add_byte v 40, ushiftRight_mul_add_byte v 32, ushiftRight_mul_add_byte v 24,
    ushiftRight_mul_add_byte v 16, ushiftRight_mul_add_byte v 8, ushiftRight_mul_add_byte v 0,
    BitVec.ushiftRight_zero]

/-- Zero bytes at the end shift the accumulated value left, 8 bits each. -/
theorem stackBytes_append_zeros (bs : List Byte) (k : Nat) :
    stackBytes (bs ++ List.replicate k 0) = stackBytes bs <<< (8 * k) := by
  induction k with
  | zero => simp
  | succ k ih =>
    rw [List.replicate_succ', ← List.append_assoc, stackBytes_concat, ih, Nat.mul_succ,
      BitVec.shiftLeft_add]
    bv_omega

/-- ShortPlace leaves a whole block as it is, so the reader may apply it to every chunk (R57, R58). -/
theorem readBlock_eq (al : ShortAlign) (buf : List Byte) (off : Nat) :
    readBlock al buf off =
      (shortPlace al (stackBytes (memRead buf off 8)) (memRead buf off 8).length,
        (memRead buf off 8).length) := by
  simp only [readBlock]
  split
  · rfl
  next hlen =>
    have h8 : (memRead buf off 8).length = 8 := by
      rw [length_memRead] at hlen ⊢
      omega
    cases al <;> simp [shortPlace, h8]

/-- A read at the start of a buffer of at most 8 bytes takes all of it. -/
theorem readBlock_short (al : ShortAlign) {bs : List Byte} (h : bs.length ≤ 8) :
    readBlock al bs 0 = (shortPlace al (stackBytes bs) bs.length, bs.length) := by
  rw [readBlock_eq, memRead, List.drop_zero, List.take_of_length_le h]

/-- The reader undoes the writer (R59). -/
theorem readBlock_blockToBytes (al : ShortAlign) (v : Word) :
    readBlock al (blockToBytes v) 0 = (v, 8) := by
  rw [readBlock_short al (by simp), stackBytes_blockToBytes]
  cases al <;> simp [shortPlace]

/-- Under LOW the bytes of a short buffer are the last of its block (R58). -/
theorem blockToBytes_readBlock_low {bs : List Byte} (h : bs.length ≤ 8) :
    blockToBytes (readBlock .low bs 0).1 = List.replicate (8 - bs.length) 0 ++ bs := by
  rw [readBlock_short _ h, shortPlace, blockToBytes_stackBytes,
    List.drop_append_of_le_length (by simpa using h), List.drop_replicate]

/-- Under HIGH the bytes of a short buffer are the first of its block (R58). -/
theorem blockToBytes_readBlock_high {bs : List Byte} (h : bs.length ≤ 8) :
    blockToBytes (readBlock .high bs 0).1 = bs ++ List.replicate (8 - bs.length) 0 := by
  have hlen : (bs ++ List.replicate (8 - bs.length) (0 : Byte)).length = 8 := by
    simp [h]
  rw [readBlock_short _ h, shortPlace, ← stackBytes_append_zeros, blockToBytes_stackBytes, hlen]
  rfl

/-- Settles O26, from the two places of a short buffer's bytes in the block. -/
theorem blockReaderWriter : Obligations.BlockReaderWriter := by
  refine ⟨readBlock_blockToBytes, fun bs h => ⟨?_, ?_, ?_, ?_⟩⟩
  · rw [readBlock_short _ h]
  · rw [readBlock_short _ h]
  · exact blockToBytes_readBlock_low h
  · exact blockToBytes_readBlock_high h

/-! ### Raw accesses at the bus (R51) -/

/-- An access is well formed exactly when it is 64 bits wide at the offset of a slot. -/
theorem wellFormed_iff (a : BusAccess) :
    a.wellFormed = true ↔ a.width = 64 ∧ ∃ i : Fin 8, a.offset = 8 * i.val := by
  have hoffset : (a.offset % 8 = 0 ∧ a.offset ≤ 0x38) ↔ ∃ i : Fin 8, a.offset = 8 * i.val := by
    constructor
    · rintro ⟨hmod, hle⟩
      exact ⟨⟨a.offset / 8, by omega⟩, (Nat.mul_div_cancel' (Nat.dvd_of_mod_eq_zero hmod)).symm⟩
    · rintro ⟨i, hi⟩
      omega
  simp [BusAccess.wellFormed, BusAccess.wholeWord, BusAccess.aligned, BusAccess.inBlock,
    and_assoc, hoffset]

theorem slotOfIndex_index (r : Slot) : slotOfIndex r.index.val = some r := by
  cases r <;> rfl

/-- A whole register at offset 8·i reaches slot i. -/
theorem busSlot_eq_some {a : BusAccess} {r : Slot} (hwidth : a.width = 64)
    (hoffset : a.offset = 8 * r.index.val) : busSlot a = some r := by
  have hwf : a.wellFormed = true := (wellFormed_iff a).mpr ⟨hwidth, r.index, hoffset⟩
  rw [busSlot, if_pos hwf, hoffset, Nat.mul_div_cancel_left _ (by decide), slotOfIndex_index]

theorem busSlot_eq_none {a : BusAccess} (h : a.wellFormed = false) : busSlot a = none := by
  simp [busSlot, h]

/-- A raw access placed next that reaches a slot is carried out by the next step. -/
theorem step_hostDoes_bus {a : BusAccess} {r : Slot} (s : State) (h : busSlot a = some r) :
    step (s.hostDoes (.bus a)) = .next (busTransaction a r s) := by
  change hostTurn (popTurn (s.hostDoes (.bus a))) = _
  simp only [hostTurn, popTurn_script, State.hostDoes_script, h]
  rfl

/-- A raw access placed next that reaches no slot is refused by the next step. -/
theorem step_hostDoes_bus_refused {a : BusAccess} (s : State) (h : busSlot a = none) :
    step (s.hostDoes (.bus a)) = .refused (.busAccess a.offset a.width) := by
  change hostTurn (popTurn (s.hostDoes (.bus a))) = _
  simp only [hostTurn, popTurn_script, State.hostDoes_script, h]

/-- Settles O37, by whether the access is well formed and, if it is, by its direction. -/
theorem busAccesses : Obligations.BusAccesses := by
  refine fun s a => ⟨fun r hwidth hoffset => ?_, fun hbad => ?_⟩
  · rw [step_hostDoes_bus s (busSlot_eq_some hwidth hoffset), busTransaction]
    cases a.value with
    | some v => rw [step_hostDoes_write]
    | none => rw [step_hostDoes_read]
  · rw [← wellFormed_iff, Bool.not_eq_true] at hbad
    exact step_hostDoes_bus_refused s (busSlot_eq_none hbad)

/-! ### Register reads and writes (R52, R53) -/

/-- BUSY as a number. -/
theorem toNat_busy (s : State) : s.busy.toNat = if s.pend = none then 0 else 1 := by
  cases h : s.pend <;> simp [State.busy, h]

/-- ECODE ‖ 0 ‖ ERR ‖ KV ‖ BUSY (R23), as a number. -/
theorem status_fields_eq_ofNat : ∀ (code : BitVec 4) (err kv busy : Bool),
    (code ++ 0#1 ++ BitVec.ofBool err ++ BitVec.ofBool kv ++ BitVec.ofBool busy).setWidth 64 =
      BitVec.ofNat 64 (16 * code.toNat + 4 * err.toNat + 2 * kv.toNat + busy.toNat) := by
  decide

theorem statusWord_eq_ofNat (s : State) :
    statusWord s = BitVec.ofNat 64
      (16 * s.ecode.code.toNat + 4 * s.err.toNat + 2 * s.kv.toNat + s.busy.toNat) :=
  status_fields_eq_ofNat ..

/-- Settles O33: STATUS by its value as a number, the other slots by the register they name. -/
theorem hostReadValues : Obligations.HostReadValues := by
  intro s got code
  have hcode : s.ecode.code.toNat = code := by
    simp only [code]
    cases s.ecode <;> rfl
  have hstatus : hostRead .status s = BitVec.ofNat 64
      (16 * code + 4 * s.err.toNat + 2 * s.kv.toNat + (if s.pend = none then 0 else 1)) := by
    rw [hostRead, statusWord_eq_ofNat, hcode, toNat_busy]
  simp only [step_hostDoes_read, hstatus]
  exact ⟨rfl, rfl, rfl, rfl, rfl, rfl, rfl, rfl⟩

/-- A write of an operand register, by PEND (R53). -/
theorem next_writeOperand (store : State → State) (s : State) :
    (Host.Outcome.next (writeOperand store s) : Host.Outcome State Fault Refusal) =
      if s.pend = none then .next (store s) else .next (raise .busyWrite s) := by
  cases h : s.pend <;> simp [writeOperand, State.busy, h]

/-- Settles O35, slot by slot: KEY, DIN and CHAIN by PEND, the others at once. -/
theorem hostWriteEffects : Obligations.HostWriteEffects := by
  intro s v refused
  simp only [step_hostDoes_write]
  exact ⟨rfl, rfl,
    next_writeOperand (fun s => { s with key := v }) s,
    next_writeOperand (fun s => { s with din := v }) s,
    next_writeOperand (fun s => { s with chain := v }) s,
    rfl, rfl, rfl⟩

end Sys2Proof.Machine
end

section
/-! PROOFS. The command word (30_encoding.md): its fields, the opcode map, the decoder against the
encoder, the illegal words, and the issue and performing of the command that a word decodes to. -/
namespace Sys2Proof.Machine

/-! ### The fields of a word (R80) -/

/-- OP as a number. -/
theorem toNat_opField (w : Word) : (opField w).toNat = w.toNat % 256 := by
  rw [opField, toNat_byte, Nat.pow_zero, Nat.div_one]

/-- RIDX as a number. -/
theorem toNat_ridxField (w : Word) : (ridxField w).toNat = w.toNat / 2 ^ 8 % 16 := by
  rw [ridxField, BitVec.extractLsb'_toNat, Nat.shiftRight_eq_div_pow]

/-- RSVD as a number: it reaches up to bit 63, so it is all that lies above RIDX. -/
theorem toNat_rsvdField (w : Word) : (rsvdField w).toNat = w.toNat / 2 ^ 12 := by
  have hw : w.toNat / 2 ^ 12 < 2 ^ 52 := by omega
  rw [rsvdField, BitVec.extractLsb'_toNat, Nat.shiftRight_eq_div_pow, Nat.mod_eq_of_lt hw]

/-- The three fields cover the word. -/
theorem word_eq_of_fields {v w : Word} (hop : opField v = opField w)
    (hridx : ridxField v = ridxField w) (hrsvd : rsvdField v = rsvdField w) : v = w := by
  rw [← BitVec.toNat_inj, toNat_opField, toNat_opField] at hop
  rw [← BitVec.toNat_inj, toNat_ridxField, toNat_ridxField] at hridx
  rw [← BitVec.toNat_inj, toNat_rsvdField, toNat_rsvdField] at hrsvd
  apply BitVec.eq_of_toNat_eq
  omega

/-- The fields of every command's word. -/
theorem fields_encode : ∀ i : Instr, Laws.Fields.Statement i
  | .nop => Laws.Fields.nop
  | .keyldRaw => Laws.Fields.keyldRaw
  | .keyldCmp => Laws.Fields.keyldCmp
  | .enc => Laws.Fields.enc
  | .dec => Laws.Fields.dec
  | .cbcEnc => Laws.Fields.cbcEnc
  | .cbcDec => Laws.Fields.cbcDec
  | .cfbEnc => Laws.Fields.cfbEnc
  | .cfbDec => Laws.Fields.cfbDec
  | .permIp => Laws.Fields.permIp
  | .permFp => Laws.Fields.permFp
  | .permE => Laws.Fields.permE
  | .permP => Laws.Fields.permP
  | .permPc1 => Laws.Fields.permPc1
  | .permPc2 => Laws.Fields.permPc2
  | .sbox => Laws.Fields.sbox
  | .ffunc ridx => Laws.Fields.ffunc ridx
  | .rkrd ridx => Laws.Fields.rkrd ridx

/-- A word is a command's encoding exactly when its fields are the command's (R80, R83). -/
theorem eq_encode_iff (w : Word) (i : Instr) :
    w = encode i ↔ opField w = i.op ∧ ridxField w = i.ridx ∧ rsvdField w = 0 := by
  obtain ⟨hop, hridx, hrsvd, -⟩ := fields_encode i
  constructor
  · rintro rfl
    exact ⟨hop, hridx, hrsvd⟩
  · rintro ⟨hop', hridx', hrsvd'⟩
    exact word_eq_of_fields (hop'.trans hop.symm) (hridx'.trans hridx.symm)
      (hrsvd'.trans hrsvd.symm)

/-! ### The opcode map (R81) -/

/-- The OP of a command selects the command. -/
theorem mnemonicOf_op (i : Instr) : mnemonicOf i.op i.ridx.toFin = some i := by
  cases i <;> rfl

/-- A command that an OP selects has this OP and, if the OP uses RIDX, the index given. -/
theorem op_ridx_of_mnemonicOf {op : BitVec 8} {r : BitVec 4} {i : Instr}
    (h : mnemonicOf op r.toFin = some i) : op = i.op ∧ (opUsesRidx op = true → i.ridx = r) := by
  have hop : op.toNat = i.op.toNat := by
    unfold mnemonicOf at h
    split at h <;> cases h <;> assumption
  obtain rfl := BitVec.eq_of_toNat_eq hop
  refine ⟨rfl, fun huses => ?_⟩
  cases i with
  | ffunc | rkrd => cases h; rfl
  | _ => cases huses

/-- The unassigned OPs (R86, R87). -/
theorem mnemonicOf_eq_none_iff (op : BitVec 8) (r : Fin 16) :
    mnemonicOf op r = none ↔
      (0x03 ≤ op.toNat ∧ op.toNat ≤ 0x0F) ∨ (0x16 ≤ op.toNat ∧ op.toNat ≤ 0x1F) ∨
      0x29 ≤ op.toNat := by
  have hlt : op.toNat < 256 := op.isLt
  unfold mnemonicOf
  split
  case h_19 => simp only [imp_false, true_iff] at *; omega
  all_goals
    next hop => simp [hop]

/-- The OPs that use RIDX, by number. -/
theorem opUsesRidx_iff (op : BitVec 8) :
    opUsesRidx op = true ↔ op.toNat = 0x27 ∨ op.toNat = 0x28 := by
  simp [opUsesRidx, ← BitVec.toNat_inj]

/-! ### The decoder (R85, R86) -/

/-- The words that decode: RSVD = 0, OP assigned, and RIDX = 0 if the OP takes none. -/
theorem decode_eq_ok_iff (w : Word) (i : Instr) :
    decode w = .ok i ↔
      rsvdField w = 0 ∧ mnemonicOf (opField w) (ridxIndex w) = some i ∧
      (opUsesRidx (opField w) = true ∨ ridxField w = 0) := by
  unfold decode
  split
  next hrsvd => exact iff_of_false nofun fun ⟨h, _⟩ => hrsvd h
  next hrsvd =>
    split
    next hm => exact iff_of_false nofun fun ⟨_, h, _⟩ => nomatch hm.symm.trans h
    next j hm =>
      split
      next hridx =>
        have hlegal : opUsesRidx (opField w) = true ∨ ridxField w = 0 := by simpa using hridx
        simp only [not_not.mp hrsvd, hm, hlegal, Except.ok.injEq, Option.some.injEq, true_and,
          and_true]
      next hridx => exact iff_of_false nofun fun ⟨_, _, h⟩ => hridx (by simpa using h)

/-- The words that do not: each of the three causes of R86 is enough. -/
theorem decode_eq_error_iff (w : Word) :
    (∃ e, decode w = .error e) ↔
      mnemonicOf (opField w) (ridxIndex w) = none ∨ rsvdField w ≠ 0 ∨
      (ridxField w ≠ 0 ∧ opUsesRidx (opField w) = false) := by
  have herror : (∃ e, decode w = .error e) ↔ ∀ i, decode w ≠ .ok i := by
    cases decode w <;> simp
  rw [herror]
  cases hm : mnemonicOf (opField w) (ridxIndex w)
  · simp [decode_eq_ok_iff, hm]
  · simp only [decode_eq_ok_iff, hm, ne_eq, Option.some.injEq, forall_apply_eq_imp_iff, not_and,
      reduceCtorEq, false_or, ← Bool.not_eq_true]
    tauto

/-- Settles O2: a word decodes to a command exactly when its three fields are the command's, and the
fields are the whole word. -/
theorem decodeIffEncode : Obligations.DecodeIffEncode := by
  intro w i
  rw [decode_eq_ok_iff, eq_encode_iff]
  obtain ⟨-, -, -, hunused⟩ := fields_encode i
  constructor
  · rintro ⟨hrsvd, hm, hridx⟩
    obtain ⟨hop, hused⟩ := op_ridx_of_mnemonicOf hm
    refine ⟨hop, ?_, hrsvd⟩
    cases huses : opUsesRidx (opField w)
    · rw [hunused (hop ▸ huses)]
      simpa [huses] using hridx
    · exact (hused huses).symm
  · rintro ⟨hop, hridx, hrsvd⟩
    rw [ridxIndex, hop, hridx]
    refine ⟨hrsvd, mnemonicOf_op i, ?_⟩
    cases huses : opUsesRidx i.op
    · exact .inr (hunused huses)
    · exact .inl rfl

/-! ### A write to CMD while no command is pending (R220) -/

/-- An illegal word is refused, whatever makes it illegal. -/
theorem issueCommand_illegal {w : Word} {s : State} (hidle : s.pend = none)
    (hw : ∃ e, decode w = .error e) : issueCommand w s = raise .illegalCmd s := by
  obtain ⟨e, he⟩ := hw
  simp [issueCommand, State.busy, hidle, he]

/-- A legal word is accepted, if a key is loaded or its command needs none. -/
theorem issueCommand_accept {w : Word} {d : Instr} {s : State} (hidle : s.pend = none)
    (hw : decode w = .ok d) (hk : needsKV d = true → s.kv = true) :
    issueCommand w s = accept d s := by
  cases hn : needsKV d <;> simp_all [issueCommand, State.busy]

/-- Settles O3: the causes by their fields as numbers, and the refusal at issue. -/
theorem illegalWords : Obligations.IllegalWords := by
  refine fun w => ⟨?_, fun hw s hidle => ?_⟩
  · rw [decode_eq_error_iff, mnemonicOf_eq_none_iff, ← Bool.not_eq_true, opUsesRidx_iff, not_or,
      ← toNat_opField, ← toNat_ridxField, ← toNat_rsvdField]
    simp [← BitVec.toNat_inj]
  · rw [step_hostDoes_write, hostWrite, issueCommand_illegal hidle hw, raise]

/-! ### The core's turn (R221) -/

/-- With a turn of the core listed next, the step performs the pending command. -/
theorem step_turnOf_core {s : State} {d : Instr} (hd : s.pend = some d) :
    step (s.turnOf .core) = exec d s := by
  change coreTurn s = _
  rw [coreTurn, hd]

/-- With no turns listed, too (log entry 3). -/
theorem step_turns_nil {s : State} {d : Instr} (hturns : s.turns = []) (hd : s.pend = some d) :
    step s = exec d s := by
  have hpop : popTurn s = s := by rw [popTurn, hturns, List.tail_nil, ← hturns]
  have hnext : nextTurn s = .core := by simp [nextTurn, hturns, State.busy, hd]
  simp only [step, hnext, hpop, coreTurn, hd]

/-- Settles O39: the write is accepted at issue, and the core's turn performs what is pending. -/
theorem stepRunsDecoded : Obligations.StepRunsDecoded := by
  intro s w d hw hidle hk
  have hissue (u : State) (hpend : u.pend = none) (hkv : u.kv = s.kv) :
      step (u.hostDoes (.write .cmd w)) = .next { u with pend := some d } := by
    rw [step_hostDoes_write, hostWrite, issueCommand_accept hpend hw (hkv ▸ hk), accept]
  exact ⟨hissue _ hidle rfl, step_turnOf_core rfl,
    fun hturns => ⟨hissue s hidle rfl, step_turns_nil hturns rfl⟩⟩

end Sys2Proof.Machine
end

section
/-! PROOFS. The permutation engine (40_permutation_engine.md): the tables, Permute against XOR,
complement and another Permute, and what the six commands put into DOUT. -/
namespace Sys2Proof.Machine

/-! ### The tables (R101, R153, R154) -/

theorem bounds_tableIP : ∀ p ∈ tableIP, 1 ≤ p ∧ p ≤ 64 := by decide
theorem bounds_tableFP : ∀ p ∈ tableFP, 1 ≤ p ∧ p ≤ 64 := by decide
theorem bounds_tableE : ∀ p ∈ tableE, 1 ≤ p ∧ p ≤ 32 := by decide
theorem bounds_tableP : ∀ p ∈ tableP, 1 ≤ p ∧ p ≤ 32 := by decide
theorem bounds_tablePC1 : ∀ p ∈ tablePC1, 1 ≤ p ∧ p ≤ 64 := by decide
theorem bounds_tablePC2 : ∀ p ∈ tablePC2, 1 ≤ p ∧ p ≤ 56 := by decide

/-- Settles O9: the lengths and the bounds of the six tables, and the S-boxes row by row. -/
theorem tablesValid : Obligations.TablesValid := by
  constructor
  · simp only [List.forall_mem_cons]
    exact ⟨⟨length_tableIP, bounds_tableIP⟩, ⟨length_tableFP, bounds_tableFP⟩,
      ⟨length_tableE, bounds_tableE⟩, ⟨length_tableP, bounds_tableP⟩,
      ⟨length_tablePC1, bounds_tablePC1⟩, ⟨length_tablePC2, bounds_tablePC2⟩, nofun⟩
  · decide

/-- Entry j of a table is one of its entries, so a bound on them holds of it. -/
theorem entry_mem {table : List Nat} {m j : Nat} (hlen : table.length = m) (h1 : 1 ≤ j)
    (hm : j ≤ m) : table.getD (j - 1) 0 ∈ table := by
  have hj : j - 1 < table.length := by omega
  rw [List.getD_eq_getElem _ _ hj]
  exact List.getElem_mem hj

/-! ### Vectors by their DES positions -/

/-- The DES positions cover the vector. -/
theorem eq_of_desBit_eq {n : Nat} {v w : BitVec n}
    (h : ∀ j, 1 ≤ j → j ≤ n → desBit v j = desBit w j) : v = w := by
  apply BitVec.eq_of_getLsbD_eq
  intro k hk
  have hpos : n - (n - k) = k := by omega
  simpa only [desBit, hpos] using h (n - k) (by omega) (by omega)

theorem desBit_xor {n : Nat} (a b : BitVec n) (p : Nat) :
    desBit (a ^^^ b) p = (desBit a p ^^ desBit b p) := BitVec.getLsbD_xor

/-- A position outside the vector can read false in both, hence the bounds. -/
theorem desBit_not {n p : Nat} (v : BitVec n) (h1 : 1 ≤ p) (hn : p ≤ n) :
    desBit (~~~v) p = !desBit v p := by
  have hpos : n - p < n := by omega
  simp [desBit, hpos]

/-! ### Permute against XOR and complement (R115) -/

/-- Permute (R100), bit by bit, for a table of any length. -/
theorem getLsbD_permute_of_any_length {n : Nat} (table : List Nat) (m : Nat) (v : BitVec n)
    (k : Nat) :
    (permute table n m v).getLsbD k =
      (decide (k < m ∧ k < table.length) && desBit v (table.getD (table.length - 1 - k) 0)) := by
  rw [permute, getLsbD_permuteLoop]
  by_cases hk : k < table.length <;> simp [hk]

theorem permute_xor {n : Nat} (table : List Nat) (m : Nat) (a b : BitVec n) :
    permute table n m (a ^^^ b) = permute table n m a ^^^ permute table n m b := by
  apply BitVec.eq_of_getLsbD_eq
  intro k _
  simp only [BitVec.getLsbD_xor, getLsbD_permute_of_any_length, desBit_xor,
    Bool.and_xor_distrib_left]

theorem permute_not {table : List Nat} {n m : Nat} (a : BitVec n) (hlen : table.length = m)
    (hbounds : ∀ p ∈ table, 1 ≤ p ∧ p ≤ n) :
    permute table n m (~~~a) = ~~~(permute table n m a) := by
  apply eq_of_desBit_eq
  intro j h1 hm
  obtain ⟨hp1, hpn⟩ := hbounds _ (entry_mem hlen h1 hm)
  rw [desBit_permute _ _ hlen j h1 hm, desBit_not _ hp1 hpn, desBit_not _ h1 hm,
    desBit_permute _ _ hlen j h1 hm]

/-- Settles O8: every bit of the output is one bit of the input, or one that both sides leave
zero. -/
theorem permuteLinear : Obligations.PermuteLinear := fun table _ m a b =>
  ⟨permute_xor table m a b, permute_not a⟩

/-! ### Permute after Permute (R114) -/

/-- Two permutations in a row are one, whose table looks each entry of the second table up in the
first. -/
theorem permute_permute {t u : List Nat} {l n : Nat} (m : Nat) (v : BitVec l)
    (hlen : t.length = n) (hbounds : ∀ p ∈ u, 1 ≤ p ∧ p ≤ n) :
    permute u n m (permute t l n v) = permute (u.map fun p => t.getD (p - 1) 0) l m v := by
  refine (List.foldl_ext _ _ _ fun w p hp => ?_).trans List.foldl_map.symm
  obtain ⟨h1, hn⟩ := hbounds p hp
  rw [desBit_permute t v hlen p h1 hn]

/-- The table 1, 2, …, n moves nothing. -/
theorem permute_identity {n : Nat} (v : BitVec n) : permute (List.range' 1 n) n n v = v := by
  apply eq_of_desBit_eq
  intro j h1 hn
  have hentry : (List.range' 1 n).getD (j - 1) 0 = j := by
    rw [List.getD_eq_getElem _ _ (by rw [List.length_range']; omega), List.getElem_range']
    omega
  rw [desBit_permute _ _ List.length_range' j h1 hn, hentry]

theorem permFP_permIP (v : Word) : permFP (permIP v) = v := by
  have hcomp : (tableFP.map fun p => tableIP.getD (p - 1) 0) = List.range' 1 64 := by decide
  rw [permFP, permIP, permute_permute 64 v length_tableIP bounds_tableFP, hcomp, permute_identity]

theorem permIP_permFP (v : Word) : permIP (permFP v) = v := by
  have hcomp : (tableIP.map fun p => tableFP.getD (p - 1) 0) = List.range' 1 64 := by decide
  rw [permIP, permFP, permute_permute 64 v length_tableFP bounds_tableIP, hcomp, permute_identity]

theorem exec_permIp (s : State) :
    exec .permIp s = .next { s with dout := permIP s.din, pend := none } := rfl

theorem exec_permFp (s : State) :
    exec .permFp s = .next { s with dout := permFP s.din, pend := none } := rfl

/-- Settles O7: the table of IP, looked up through that of FP, is the identity, and so is the
converse. -/
theorem permIpFpInverse : Obligations.PermIpFpInverse := by
  refine fun s => ⟨⟨_, exec_permIp s, ?_⟩, ⟨_, exec_permFp s, ?_⟩⟩
  · rw [exec_permFp, permFP_permIP]
  · rw [exec_permIp, permIP_permFP]

/-! ### The commands (R108 to R113) -/

/-- Settles O4: DOUT is Permute of DIN, position by position. -/
theorem permIpFpResult : Obligations.PermIpFpResult := fun s =>
  ⟨⟨_, exec_permIp s, rfl, desBit_permute tableIP s.din length_tableIP⟩,
    ⟨_, exec_permFp s, rfl, desBit_permute tableFP s.din length_tableFP⟩⟩

/-- Above its width a zero-extended result is zero. -/
theorem getLsbD_zext64_of_ge {m : Nat} (v : BitVec m) (b : Nat) (hb : m ≤ b) :
    (zext64 v).getLsbD b = false := by
  simp [zext64, BitVec.getLsbD_of_ge v b hb]

/-- Position j of a permutation of the low n bits of a word, zero-extended, is position T[j] of
those bits. -/
theorem getLsbD_zext64_permute {table : List Nat} {n m : Nat} {v : BitVec n} {w : Word}
    (hlow : ∀ k, k < n → v.getLsbD k = w.getLsbD k) (hm : m ≤ 64) (hlen : table.length = m)
    (hbounds : ∀ p ∈ table, 1 ≤ p ∧ p ≤ n) (j : Nat) (h1 : 1 ≤ j) (hj : j ≤ m) :
    (zext64 (permute table n m v)).getLsbD (m - j) = w.getLsbD (n - table.getD (j - 1) 0) := by
  obtain ⟨hp1, hpn⟩ := hbounds _ (entry_mem hlen h1 hj)
  calc (zext64 (permute table n m v)).getLsbD (m - j)
      = desBit (permute table n m v) j := by
        have hword : m - j < 64 := by omega
        simp [zext64, desBit, hword]
    _ = desBit v (table.getD (j - 1) 0) := desBit_permute table v hlen j h1 hj
    _ = w.getLsbD (n - table.getD (j - 1) 0) := hlow _ (by omega)

/-- DIN[31:0] and DIN[55:0] are the low bits of DIN. -/
theorem getLsbD_dinHalf (s : State) (k : Nat) (hk : k < 32) :
    (dinHalf s).getLsbD k = s.din.getLsbD k := by
  simp [dinHalf, hk]

theorem getLsbD_dinKey56 (s : State) (k : Nat) (hk : k < 56) :
    (dinKey56 s).getLsbD k = s.din.getLsbD k := by
  simp [dinKey56, hk]

/-- Settles O5: DOUT is Permute of DIN[31:0], zero-extended. -/
theorem permEPResult : Obligations.PermEPResult := fun s =>
  ⟨⟨_, rfl, rfl, getLsbD_zext64_of_ge (expand (dinHalf s)),
      getLsbD_zext64_permute (getLsbD_dinHalf s) (by decide) length_tableE bounds_tableE⟩,
    ⟨_, rfl, rfl, getLsbD_zext64_of_ge (permP (dinHalf s)),
      getLsbD_zext64_permute (getLsbD_dinHalf s) (by decide) length_tableP bounds_tableP⟩⟩

/-- Settles O6: DOUT is Permute of DIN or of DIN[55:0], zero-extended. -/
theorem permPc1Pc2Result : Obligations.PermPc1Pc2Result := fun s =>
  ⟨⟨_, rfl, rfl, getLsbD_zext64_of_ge (permPC1 (dinBlock s)),
      getLsbD_zext64_permute (fun _ _ => rfl) (by decide) length_tablePC1 bounds_tablePC1⟩,
    ⟨_, rfl, rfl, getLsbD_zext64_of_ge (permPC2 (dinKey56 s)),
      getLsbD_zext64_permute (getLsbD_dinKey56 s) (by decide) length_tablePC2 bounds_tablePC2⟩⟩

end Sys2Proof.Machine
end

section
/-! PROOFS. The key schedule (41_key_schedule.md): rotations of a key half, the rounds as rotations
of the key's own halves, the key loads and the read of a round key. -/
namespace Sys2Proof.Machine

/-! ### Rotations of a key half (R11, R132) -/

@[simp] theorem rotl28_rotl28 (v : KeyHalf) (m n : Nat) :
    rotl28 (rotl28 v m) n = rotl28 v (m + n) := by
  apply BitVec.eq_of_getMsbD_eq
  intro i hi
  have hmod : (n + i) % 28 < 28 := Nat.mod_lt _ (by decide)
  simp only [rotl28, BitVec.getMsbD_rotateLeft, hi, hmod, decide_true, Bool.true_and,
    Nat.add_mod_mod, Nat.add_assoc]

/-- A full turn of a half moves nothing. -/
theorem rotl28_full_turn (v : KeyHalf) : rotl28 v 28 = v := by
  apply BitVec.eq_of_getMsbD_eq
  intro i hi
  simp only [rotl28, BitVec.getMsbD_rotateLeft, hi, decide_true, Bool.true_and,
    Nat.add_mod_left, Nat.mod_eq_of_lt]

/-- A compressed key is its two halves joined. -/
theorem halfC_append_halfD (k : CompressedKey) : halfC k ++ halfD k = k :=
  BitVec.extractLsb'_append_extractLsb' (w := 28) (len := 28)

/-! ### The round keys (R133) -/

/-- Threading the rotated halves through the rounds adds the shifts up: round r rotates the halves
it started from by the sum of the first r + 1 shifts. -/
theorem getElem_scheduleRounds (ns : List Nat) : ∀ (c d : KeyHalf) (r : Nat)
    (hr : r < (scheduleRounds c d ns).length),
    (scheduleRounds c d ns)[r] =
      permPC2 (rotl28 c (ns.take (r + 1)).sum ++ rotl28 d (ns.take (r + 1)).sum) := by
  induction ns with
  | nil => exact fun c d r hr => absurd hr (Nat.not_lt_zero r)
  | cons n rest ih =>
    intro c d r hr
    cases r with
    | zero => simp [scheduleRounds]
    | succ r =>
      simp only [scheduleRounds, List.getElem_cons_succ, ih, rotl28_rotl28, List.take_succ_cons,
        List.sum_cons]

/-- The running sums of SHIFT (95_test_vectors.md V2). -/
def shiftSums : List Nat := [1, 2, 4, 6, 8, 10, 12, 14, 15, 17, 19, 21, 23, 25, 27, 28]

theorem sum_take_shifts : ∀ r : Fin 16, (shifts.take (r + 1)).sum = shiftSums.getD r 0 := by decide

theorem getElem_keySchedule (k : CompressedKey) (r : Fin 16) :
    (keySchedule k)[r] = permPC2 (rotl28 (halfC k) (shiftSums.getD r 0) ++
      rotl28 (halfD k) (shiftSums.getD r 0)) := by
  rw [← sum_take_shifts]
  exact getElem_scheduleRounds shifts _ _ _ _

/-- Settles O13: the sixteen shifts add up to 28, so both halves are back where they began. -/
theorem lastRoundKey : Obligations.LastRoundKey := by
  intro k
  have hlast : (keySchedule k)[15] = permPC2 (rotl28 (halfC k) 28 ++ rotl28 (halfD k) 28) :=
    getElem_keySchedule k 15
  rw [hlast, rotl28_full_turn, rotl28_full_turn, halfC_append_halfD]

/-! ### The commands (R134 to R136) -/

theorem exec_keyldRaw (s : State) :
    exec .keyldRaw s =
      .next { s with ks := keySchedule (permPC1 s.key), kv := true, pend := none } := rfl

theorem exec_keyldCmp (s : State) :
    exec .keyldCmp s =
      .next { s with ks := keySchedule (compressedKey s), kv := true, pend := none } := rfl

/-- The halves of the compressed-key operand are KEY[55:28] and KEY[27:0]. -/
theorem halfC_compressedKey (s : State) : halfC (compressedKey s) = s.key.extractLsb' 28 28 :=
  BitVec.extractLsb'_extractLsb'_of_le (by decide)

theorem halfD_compressedKey (s : State) : halfD (compressedKey s) = s.key.extractLsb' 0 28 :=
  BitVec.extractLsb'_extractLsb'_of_le (by decide)

/-- Settles O10: KS is the schedule of PC1(KEY), whose rounds rotate the halves by the sums. -/
theorem keyldRawResult : Obligations.KeyldRawResult := fun s =>
  ⟨_, exec_keyldRaw s, rfl, getElem_keySchedule (permPC1 s.key)⟩

/-- Settles O11: KS is the schedule of KEY[55:0]. -/
theorem keyldCmpResult : Obligations.KeyldCmpResult := by
  refine fun s => ⟨_, exec_keyldCmp s, rfl, fun r => ?_⟩
  rw [← halfC_compressedKey, ← halfD_compressedKey]
  exact getElem_keySchedule (compressedKey s) r

/-- Settles O14: RKRD is the zero-extended round key into DOUT. -/
theorem rkrdResult : Obligations.RkrdResult := fun _ _ => rfl

/-! ### Parity bits, and the two ways to load a key (corner cases of R134, R135) -/

/-- The parity bits of a raw key: positions 8, 16, ..., 64 (R134). -/
abbrev parityBits : Word := 0x0101010101010101

/-- PC1 takes no parity bit (R106). -/
theorem desBit_parityBits : ∀ p ∈ tablePC1, desBit parityBits p = false := by decide

theorem desBit_and {n : Nat} (a b : BitVec n) (p : Nat) :
    desBit (a &&& b) p = (desBit a p && desBit b p) := BitVec.getLsbD_and

theorem permPC1_parity (m : Word) : permPC1 (m &&& parityBits) = 0#56 := by
  apply eq_of_desBit_eq
  intro j h1 hj
  have hclear := desBit_parityBits _ (entry_mem length_tablePC1 h1 hj)
  rw [permPC1, desBit_permute _ _ length_tablePC1 j h1 hj, desBit_and, hclear, Bool.and_false,
    desBit, BitVec.getLsbD_zero]

theorem permPC1_xor_parity (v m : Word) : permPC1 (v ^^^ (m &&& parityBits)) = permPC1 v := by
  calc permPC1 (v ^^^ (m &&& parityBits))
      = permPC1 v ^^^ permPC1 (m &&& parityBits) := permute_xor tablePC1 56 v _
    _ = permPC1 v := by rw [permPC1_parity, BitVec.xor_zero]

/-- KEY[55:0] ignores the top byte, whatever stands there (R135). -/
theorem extractLsb'_top_byte_or (m : Word) (k : CompressedKey) :
    ((m &&& 0xFF00000000000000) ||| k.setWidth 64 : Word).extractLsb' 0 56 = k := by
  have hmask : (0xFF00000000000000 : Word).extractLsb' 0 56 = 0#56 := by decide
  rw [BitVec.extractLsb'_or, BitVec.extractLsb'_and, hmask, BitVec.and_zero, BitVec.zero_or,
    BitVec.extractLsb'_setWidth_of_le (by decide), BitVec.extractLsb'_eq_self]

/-- Settles O12: PC1 drops the parity bits, and KEYLD_CMP's operand is then PC1's output, so all
three loads compute one schedule. -/
theorem keyLoadsAgree : Obligations.KeyLoadsAgree := by
  refine fun s m => ⟨_, exec_keyldRaw s, ?_, ?_⟩
  · rw [exec_keyldRaw, permPC1_xor_parity]
  · rw [exec_keyldCmp, compressedKey, extractLsb'_top_byte_or]

end Sys2Proof.Machine
end

section
/-! PROOFS. The round function (42_round_function.md): the value of an S-box as a number, the S-box
stage as the group's own bits say it, f against complement, and the commands SBOX and FFUNC. -/
namespace Sys2Proof.Machine

/-! ### The value of an S-box (R151 to R154) -/

/-- The entry of S(k+1) that R152 names, for a group whose bits are g 0 to g 5 from the left. -/
def sboxEntry (k : Nat) (g : Nat → Nat) : Nat :=
  (([tableS1, tableS2, tableS3, tableS4, tableS5, tableS6, tableS7, tableS8].getD k []).getD
    (2 * g 0 + g 5) []).getD (8 * g 1 + 4 * g 2 + 2 * g 3 + g 4) 0

/-- Only the six bits of the group count. -/
theorem sboxEntry_congr {g h : Nat → Nat} (k : Nat) (hgh : ∀ i, i < 6 → g i = h i) :
    sboxEntry k g = sboxEntry k h := by
  simp only [sboxEntry, hgh, Nat.reduceLT]

/-- What holds of a list's elements and of the default holds of what `getD` reads. -/
theorem getD_of_forall {α : Type} {p : α → Prop} {l : List α} {d : α} (hl : ∀ x ∈ l, p x)
    (hd : p d) (i : Nat) : p (l.getD i d) := by
  by_cases hi : i < l.length
  · rw [List.getD_eq_getElem _ _ hi]
    exact hl _ (List.getElem_mem hi)
  · rwa [List.getD_eq_default _ _ (Nat.le_of_not_lt hi)]

/-- Every entry of every S-box fits in four bits (R153). -/
theorem bounds_sboxes :
    ∀ box ∈ [tableS1, tableS2, tableS3, tableS4, tableS5, tableS6, tableS7, tableS8],
      ∀ row ∈ box, ∀ v ∈ row, v < 2 ^ 4 := by decide

theorem sboxEntry_lt (k : Nat) (g : Nat → Nat) : sboxEntry k g < 2 ^ 4 := by
  have hbox := getD_of_forall (d := []) bounds_sboxes nofun k
  have hrow := getD_of_forall (d := []) hbox nofun (2 * g 0 + g 5)
  exact getD_of_forall hrow (by decide) _

/-- The lookup loses nothing by taking the entry as four bits. -/
theorem toNat_sboxLookup (k : Nat) (v : BitVec 6) :
    (sboxLookup
        ([tableS1, tableS2, tableS3, tableS4, tableS5, tableS6, tableS7, tableS8].getD k [])
        v).toNat =
      sboxEntry k fun i => (v.getLsbD (5 - i)).toNat :=
  (BitVec.toNat_ofNat ..).trans
    (Nat.mod_eq_of_lt (sboxEntry_lt k fun i => (v.getLsbD (5 - i)).toNat))

/-- Bit i of group k, from the left, is x[47-6k-i] (R151). -/
theorem getLsbD_sboxGroup (x : BitVec 48) {k i : Nat} (hk : k < 8) (hi : i < 6) :
    (sboxGroup x k).getLsbD (5 - i) = x.getLsbD (47 - 6 * k - i) := by
  have hbit : 5 - i < 6 := by omega
  have hpos : 42 - 6 * k + (5 - i) = 47 - 6 * k - i := by omega
  simp [sboxGroup, hbit, hpos]

/-- Nibble k of Subst(x), as a number, from the bits of x (R151, R152). -/
theorem toNat_nibble_subst (x : BitVec 48) (k : Nat) (hk : k < 8) :
    ((subst x).extractLsb' (28 - 4 * k) 4).toNat =
      sboxEntry k fun i => (x.getLsbD (47 - 6 * k - i)).toNat := by
  rw [subst_nibble x k hk, toNat_sboxLookup]
  exact sboxEntry_congr k fun i hi => congrArg Bool.toNat (getLsbD_sboxGroup x hk hi)

/-! ### The commands (R155, R156) -/

/-- Inside its width a zero-extended result is the result. -/
theorem getLsbD_zext64_of_lt {m : Nat} (v : BitVec m) {k : Nat} (hk : k < 64) :
    (zext64 v).getLsbD k = v.getLsbD k := by
  simp [zext64, hk]

/-- DIN[47:0] is the low bits of DIN. -/
theorem getLsbD_dinBits48 (s : State) (k : Nat) (hk : k < 48) :
    (dinBits48 s).getLsbD k = s.din.getLsbD k := by
  simp [dinBits48, hk]

theorem exec_sbox (s : State) :
    exec .sbox s = .next { s with dout := zext64 (subst (dinBits48 s)), pend := none } := rfl

theorem exec_ffunc (i : Fin 16) (s : State) :
    exec (.ffunc i) s =
      .next { s with dout := zext64 (roundF (dinHalf s) (roundKey s i)), pend := none } := rfl

/-- Settles O15: DOUT is Subst of DIN[47:0], zero-extended, nibble by nibble. -/
theorem sboxResult : Obligations.SboxResult := by
  refine fun s => ⟨_, exec_sbox s, rfl, getLsbD_zext64_of_ge _, fun k hk => ?_⟩
  calc ((zext64 (subst (dinBits48 s))).extractLsb' (28 - 4 * k) 4).toNat
      = ((subst (dinBits48 s)).extractLsb' (28 - 4 * k) 4).toNat := by
        rw [zext64, BitVec.extractLsb'_setWidth_of_le (by omega)]
    _ = sboxEntry k fun i => ((dinBits48 s).getLsbD (47 - 6 * k - i)).toNat :=
        toNat_nibble_subst _ k hk
    _ = sboxEntry k fun i => (s.din.getLsbD (47 - 6 * k - i)).toNat :=
        sboxEntry_congr k fun i _ =>
          congrArg Bool.toNat (getLsbD_dinBits48 s (47 - 6 * k - i) (by omega))

/-- The input of the S-box stage in FFUNC (R150): E of DIN[31:0] XOR the round key, by position. -/
theorem desBit_expand_xor (s : State) (key : RoundKey) (j : Nat) (h1 : 1 ≤ j) (hj : j ≤ 48) :
    desBit (expand (dinHalf s) ^^^ key) j =
      (s.din.getLsbD (32 - tableE.getD (j - 1) 0) ^^ desBit key j) := by
  obtain ⟨hp1, _⟩ := bounds_tableE _ (entry_mem length_tableE h1 hj)
  rw [desBit_xor, expand, desBit_permute _ _ length_tableE j h1 hj, desBit,
    getLsbD_dinHalf s _ (by omega)]

/-- Position j of P's result, zero-extended, is position P[j] of its input (R105). -/
theorem getLsbD_zext64_permP (y : Half) (j : Nat) (h1 : 1 ≤ j) (hj : j ≤ 32) :
    (zext64 (permP y)).getLsbD (32 - j) = y.getLsbD (32 - tableP.getD (j - 1) 0) := by
  rw [getLsbD_zext64_of_lt _ (by omega)]
  exact desBit_permute tableP y length_tableP j h1 hj

/-- Settles O16: x is E of DIN[31:0] XOR the round key, y is Subst of x, and DOUT is P of y,
zero-extended. -/
theorem ffuncResult : Obligations.FfuncResult := fun s i =>
  ⟨_, expand (dinHalf s) ^^^ roundKey s i, subst (expand (dinHalf s) ^^^ roundKey s i),
    exec_ffunc i s, rfl, getLsbD_zext64_of_ge _, desBit_expand_xor s (roundKey s i),
    toNat_nibble_subst _, getLsbD_zext64_permP _⟩

/-! ### f and complement (corner case of R156) -/

theorem expand_not (r : Half) : expand (~~~r) = ~~~(expand r) :=
  permute_not r length_tableE bounds_tableE

/-- Two complements cancel under XOR. -/
theorem not_xor_not {n : Nat} (a b : BitVec n) : ~~~a ^^^ ~~~b = a ^^^ b := by
  rw [← BitVec.not_xor_left, ← BitVec.not_xor_right, BitVec.not_not]

/-- Settles O17: E keeps the complement, and the XOR before the S-boxes cancels the two. -/
theorem roundComplement : Obligations.RoundComplement := by
  intro r k
  rw [roundF, expand_not, not_xor_not, roundF]

end Sys2Proof.Machine
end

section
/-! PROOFS. The block cipher (43_block_cipher.md): the rounds that all swap (R181), the commands ENC
and DEC, the rounds undone by the reversed keys, equal round keys, and the complement. -/
namespace Sys2Proof.Machine

/-! ### The rounds that all swap (R181) -/

/-- A round followed by the swap (R172). -/
def swapRound (lr : Half × Half) (k : RoundKey) : Half × Half := (lr.2, lr.1 ^^^ roundF lr.2 k)

/-- The last round's missing swap is one swap more at the end (R181). -/
theorem feistelRounds_eq_swap (keys : List RoundKey) : ∀ (lr : Half × Half), keys ≠ [] →
    feistelRounds keys lr = (keys.foldl swapRound lr).swap := by
  induction keys with
  | nil => exact fun lr h => absurd rfl h
  | cons k ks ih =>
    intro lr _
    by_cases hks : ks = []
    · rw [hks]
      rfl
    · rw [feistelRounds_swap k ks hks, ih _ hks]
      rfl

/-- The halves (L0, R0) of IP(b) (R170). -/
def startHalves (b : Word) : Half × Half :=
  ((permIP b).extractLsb' 32 32, (permIP b).extractLsb' 0 32)

/-- Crypt in the form of R181. -/
theorem crypt_eq (b : Word) {keys : List RoundKey} (h : keys ≠ []) :
    crypt b keys = permFP ((keys.foldl swapRound (startHalves b)).2 ++
      (keys.foldl swapRound (startHalves b)).1) := by
  rw [crypt, feistelRounds_eq_swap keys _ h]
  rfl

/-- (Lj, Rj), the halves after the first j rounds. -/
def halvesAfter (b : Word) (keys : List RoundKey) (j : Nat) : Half × Half :=
  (keys.take j).foldl swapRound (startHalves b)

theorem halvesAfter_zero (b : Word) (keys : List RoundKey) :
    (halvesAfter b keys 0).1 ++ (halvesAfter b keys 0).2 = permIP b := join_halves (permIP b)

theorem halvesAfter_succ (b : Word) {keys : List RoundKey} {j : Nat} (hj : j < keys.length) :
    halvesAfter b keys (j + 1) = swapRound (halvesAfter b keys j) keys[j] := by
  rw [halvesAfter, List.take_succ_eq_append_getElem hj, List.foldl_append]
  rfl

theorem crypt_eq_halvesAfter (b : Word) {keys : List RoundKey} (h : keys.length = 16) :
    crypt b keys = permFP ((halvesAfter b keys 16).2 ++ (halvesAfter b keys 16).1) := by
  rw [crypt_eq b (List.ne_nil_of_length_eq_add_one h), halvesAfter, ← h, List.take_length]

/-! ### The commands (R174, R175) -/

theorem exec_enc (s : State) :
    exec .enc s = .next { s with dout := desE s.ks s.din, pend := none } := rfl

theorem exec_dec (s : State) :
    exec .dec s = .next { s with dout := desD s.ks s.din, pend := none } := rfl

theorem schedule_ne_nil (ks : Vector RoundKey 16) : ks.toList ≠ [] :=
  List.ne_nil_of_length_eq_add_one Vector.length_toList

theorem length_reverse_schedule (ks : Vector RoundKey 16) : ks.toList.reverse.length = 16 :=
  List.length_reverse.trans Vector.length_toList

/-- One round of ENC takes KS[j] (R171). -/
theorem halvesAfter_succ_forward (b : Word) (ks : Vector RoundKey 16) (j : Fin 16) :
    halvesAfter b ks.toList (j + 1) = swapRound (halvesAfter b ks.toList j) ks[j] := by
  rw [halvesAfter_succ b (by simp)]
  rfl

/-- One round of DEC takes KS[15-j] (R171). -/
theorem halvesAfter_succ_reverse (b : Word) (ks : Vector RoundKey 16) (j : Fin 16) :
    halvesAfter b ks.toList.reverse (j + 1) =
      swapRound (halvesAfter b ks.toList.reverse j) ks[15 - j.val] := by
  rw [halvesAfter_succ b (by simp), List.getElem_reverse]
  simp

/-- Settles O18: l and r are the halves after the first j rounds, under KS in order for ENC and
reversed for DEC. -/
theorem encDecResult : Obligations.EncDecResult := by
  refine fun s => ⟨⟨_, fun j => (halvesAfter s.din s.ks.toList j).1,
      fun j => (halvesAfter s.din s.ks.toList j).2, exec_enc s, rfl, halvesAfter_zero _ _,
      fun j => ?_, crypt_eq_halvesAfter _ Vector.length_toList⟩,
    ⟨_, fun j => (halvesAfter s.din s.ks.toList.reverse j).1,
      fun j => (halvesAfter s.din s.ks.toList.reverse j).2, exec_dec s, rfl, halvesAfter_zero _ _,
      fun j => ?_, crypt_eq_halvesAfter _ (length_reverse_schedule s.ks)⟩⟩
  · simp only [halvesAfter_succ_forward, swapRound, and_self]
  · simp only [halvesAfter_succ_reverse, swapRound, and_self]

/-- Settles O22: both results are functions of KS and DIN. -/
theorem cipherDependsOnDinAndKs : Obligations.CipherDependsOnDinAndKs := fun s s' hdin hks =>
  ⟨_, _, _, _, exec_enc s, exec_enc s', congrArg₂ desE hks hdin,
    exec_dec s, exec_dec s', congrArg₂ desD hks hdin⟩

/-! ### The reversed keys undo the rounds (R177) -/

/-- A round after a round with the same key and the halves swapped in between undoes it: f meets the
same half twice and cancels. -/
theorem swapRound_swap_swapRound (lr : Half × Half) (k : RoundKey) :
    swapRound (swapRound lr k).swap k = lr.swap := by
  simp only [swapRound, Prod.swap, BitVec.xor_assoc, BitVec.xor_self, BitVec.xor_zero]

theorem foldl_swapRound_reverse (keys : List RoundKey) : ∀ lr : Half × Half,
    keys.reverse.foldl swapRound (keys.foldl swapRound lr).swap = lr.swap := by
  induction keys with
  | nil => exact fun _ => rfl
  | cons k ks ih =>
    intro lr
    calc (k :: ks).reverse.foldl swapRound ((k :: ks).foldl swapRound lr).swap
        = swapRound (ks.reverse.foldl swapRound (ks.foldl swapRound (swapRound lr k)).swap) k := by
          rw [List.reverse_cons, List.foldl_append]
          rfl
      _ = swapRound (swapRound lr k).swap k := by rw [ih]
      _ = lr.swap := swapRound_swap_swapRound lr k

/-- IP takes off the FP that joined two halves, and the split gives them back. -/
theorem startHalves_permFP_join (a b : Half) : startHalves (permFP (a ++ b)) = (a, b) := by
  rw [startHalves, permIP_permFP, upper_join, lower_join]

theorem permFP_join_startHalves (b : Word) :
    permFP ((startHalves b).1 ++ (startHalves b).2) = b :=
  (congrArg permFP (join_halves (permIP b))).trans (permFP_permIP b)

theorem crypt_reverse_crypt (b : Word) {keys : List RoundKey} (h : keys ≠ []) :
    crypt (crypt b keys) keys.reverse = b := by
  have hstart : startHalves (crypt b keys) = (keys.foldl swapRound (startHalves b)).swap := by
    rw [crypt_eq b h, startHalves_permFP_join, Prod.swap]
  rw [crypt_eq _ (mt List.reverse_eq_nil_iff.mp h), hstart, foldl_swapRound_reverse]
  exact permFP_join_startHalves b

theorem desD_desE (ks : Vector RoundKey 16) (b : Word) : desD ks (desE ks b) = b :=
  crypt_reverse_crypt b (schedule_ne_nil ks)

theorem desE_desD (ks : Vector RoundKey 16) (b : Word) : desE ks (desD ks b) = b := by
  have h := crypt_reverse_crypt b (List.ne_nil_of_length_eq_add_one (length_reverse_schedule ks))
  rwa [List.reverse_reverse] at h

/-- Settles O19: the second command runs the first one's rounds backwards. -/
theorem encDecRoundTrip : Obligations.EncDecRoundTrip := by
  refine fun s => ⟨⟨_, exec_enc s, ?_⟩, ⟨_, exec_dec s, ?_⟩⟩
  · rw [exec_dec, desD_desE]
  · rw [exec_enc, desE_desD]

/-! ### Equal round keys (R180) -/

/-- A list of equal keys is its own reverse. -/
theorem desD_eq_desE {ks : Vector RoundKey 16} {k : RoundKey} (h : ∀ i : Fin 16, ks[i] = k)
    (b : Word) : desD ks b = desE ks b := by
  have hks : ks = Vector.replicate 16 k :=
    Vector.ext fun i hi => (h ⟨i, hi⟩).trans (Vector.getElem_replicate hi).symm
  rw [desD, desE, hks, Vector.toList_replicate, List.reverse_replicate]

theorem desE_desE {ks : Vector RoundKey 16} {k : RoundKey} (h : ∀ i : Fin 16, ks[i] = k)
    (b : Word) : desE ks (desE ks b) = b :=
  (desD_eq_desE h _).symm.trans (desD_desE ks b)

/-- Settles O21: KS reads the same in both orders, so ENC is DEC, which undoes ENC. -/
theorem equalRoundKeys : Obligations.EqualRoundKeys := by
  refine fun s k hks => ⟨_, exec_enc s, ?_, ?_⟩
  · rw [exec_dec, desD_eq_desE hks]
  · rw [exec_enc, desE_desE hks]

/-! ### The complement through the key schedule (R179) -/

/-- A slice inside the vector keeps the complement; past the end both sides would read false. -/
theorem extractLsb'_not_of_le {n : Nat} (v : BitVec n) {start len : Nat} (h : start + len ≤ n) :
    (~~~v).extractLsb' start len = ~~~(v.extractLsb' start len) := by
  apply BitVec.eq_of_getLsbD_eq
  intro i hi
  have hin : start + i < n := by omega
  simp [hi, hin]

theorem rotl28_not (v : KeyHalf) (n : Nat) : rotl28 (~~~v) n = ~~~(rotl28 v n) := by
  apply BitVec.eq_of_getMsbD_eq
  intro i hi
  have hmod : (n + i) % 28 < 28 := Nat.mod_lt _ (by decide)
  simp only [rotl28, BitVec.getMsbD_rotateLeft, BitVec.getMsbD_not, hi, hmod, decide_true,
    Bool.true_and]

theorem permPC2_not (k : CompressedKey) : permPC2 (~~~k) = ~~~(permPC2 k) :=
  permute_not k length_tablePC2 bounds_tablePC2

theorem scheduleRounds_not (ns : List Nat) : ∀ c d : KeyHalf,
    scheduleRounds (~~~c) (~~~d) ns = (scheduleRounds c d ns).map (~~~·) := by
  induction ns with
  | nil => exact fun _ _ => rfl
  | cons n rest ih =>
    intro c d
    rw [scheduleRounds, rotl28_not, rotl28_not, ← BitVec.not_append, permPC2_not, ih]
    rfl

theorem toList_keySchedule (k : CompressedKey) :
    (keySchedule k).toList = scheduleRounds (halfC k) (halfD k) shifts := rfl

theorem toList_keySchedule_not (k : CompressedKey) :
    (keySchedule (~~~k)).toList = (keySchedule k).toList.map (~~~·) := by
  rw [toList_keySchedule, halfC, halfD, extractLsb'_not_of_le _ (by decide),
    extractLsb'_not_of_le _ (by decide), scheduleRounds_not]
  rfl

/-! ### The complement through the rounds (R179) -/

theorem permIP_not (v : Word) : permIP (~~~v) = ~~~(permIP v) :=
  permute_not v length_tableIP bounds_tableIP

theorem permFP_not (v : Word) : permFP (~~~v) = ~~~(permFP v) :=
  permute_not v length_tableFP bounds_tableFP

theorem permPC1_not (v : Word) : permPC1 (~~~v) = ~~~(permPC1 v) :=
  permute_not v length_tablePC1 bounds_tablePC1

/-- Both halves complemented. -/
def notHalves (lr : Half × Half) : Half × Half := (~~~lr.1, ~~~lr.2)

/-- f is unchanged (corner case of R156), so the complement of L goes through the XOR. -/
theorem swapRound_not (lr : Half × Half) (k : RoundKey) :
    swapRound (notHalves lr) (~~~k) = notHalves (swapRound lr k) := by
  rw [swapRound, notHalves, roundComplement lr.2 k, ← BitVec.not_xor_left]
  rfl

theorem foldl_swapRound_not (lr : Half × Half) (keys : List RoundKey) :
    (keys.map (~~~·)).foldl swapRound (notHalves lr) = notHalves (keys.foldl swapRound lr) :=
  List.foldl_map.trans (List.foldl_hom notHalves swapRound_not)

theorem startHalves_not (b : Word) : startHalves (~~~b) = notHalves (startHalves b) := by
  rw [startHalves, permIP_not, extractLsb'_not_of_le _ (by decide),
    extractLsb'_not_of_le _ (by decide)]
  rfl

theorem crypt_not (b : Word) {keys : List RoundKey} (h : keys ≠ []) :
    crypt (~~~b) (keys.map (~~~·)) = ~~~(crypt b keys) := by
  rw [crypt_eq _ (mt List.map_eq_nil_iff.mp h), startHalves_not, foldl_swapRound_not, crypt_eq b h,
    ← permFP_not, BitVec.not_append]
  rfl

/-- Settles O20: PC1 and the schedule complement every round key, and each round carries the
complement of both halves on. -/
theorem complementation : Obligations.Complementation := by
  refine fun s => ⟨_, _, _, _, exec_keyldRaw _, exec_enc _, exec_keyldRaw _, exec_enc _, ?_⟩
  calc desE (keySchedule (permPC1 (~~~s.key))) (~~~s.din)
      = crypt (~~~s.din) ((keySchedule (permPC1 s.key)).toList.map (~~~·)) := by
        rw [desE, permPC1_not, toList_keySchedule_not]
    _ = ~~~(desE (keySchedule (permPC1 s.key)) s.din) := crypt_not s.din (schedule_ne_nil _)

end Sys2Proof.Machine
end

section
/-! PROOFS. The chaining modes (44_modes.md): the chaining commands, the stream operations chunk by
chunk, and the chunks that a change of the IV or of one chunk reaches. -/
namespace Sys2Proof.Machine

/-! ### The chaining commands (R190 to R193) -/

/-- The command of a stream operation is one block of that operation, with DIN as the block and
CHAIN as the chaining value (R174, R175, R190 to R194). -/
theorem exec_streamCommand (op : StreamOp) (s : State) :
    exec (streamCommand op) s =
      .next { s with
        dout := (streamBlock op s.ks s.chain s.din).1
        chain := (streamBlock op s.ks s.chain s.din).2
        pend := none } := by
  cases op <;> rfl

/-- Settles O23: both are one block of the CBC stream operations. -/
theorem cbcResult : Obligations.CbcResult := fun s =>
  ⟨⟨_, exec_enc _, exec_streamCommand .cbcEncrypt s⟩,
    _, exec_dec s, exec_streamCommand .cbcDecrypt s⟩

/-- Settles O24: both are one block of the CFB stream operations. -/
theorem cfbResult : Obligations.CfbResult := fun s =>
  ⟨_, exec_enc _, exec_streamCommand .cfbEncrypt s, exec_streamCommand .cfbDecrypt s⟩

/-- From the same chaining value, dec gives back the block that enc was given, and leaves the same
next chaining value. -/
def UndoesBlock (dec enc : StreamOp) : Prop :=
  ∀ (ks : Vector RoundKey 16) (prev x : Word),
    streamBlock dec ks prev (streamBlock enc ks prev x).1 = (x, (streamBlock enc ks prev x).2)

theorem ecbDecrypt_undoesBlock : UndoesBlock .ecbDecrypt .ecbEncrypt := fun ks prev x =>
  congrArg (·, prev) (desD_desE ks x)

/-- DES_D takes off DES_E, and the XOR with the chaining value cancels (R177). -/
theorem cbcDecrypt_undoesBlock : UndoesBlock .cbcDecrypt .cbcEncrypt := by
  intro ks prev x
  simp only [streamBlock, desD_desE, BitVec.xor_assoc, BitVec.xor_self, BitVec.xor_zero]

/-- Both directions XOR the same keystream, which cancels. -/
theorem cfbDecrypt_undoesBlock : UndoesBlock .cfbDecrypt .cfbEncrypt := by
  intro ks prev x
  simp only [streamBlock, ← BitVec.xor_assoc, BitVec.xor_self, BitVec.zero_xor]

/-- Where dec undoes enc, its command undoes that of enc. -/
theorem UndoesBlock.exec {dec enc : StreamOp} (h : UndoesBlock dec enc) (s : State) :
    ∃ t, exec (streamCommand enc) s = .next t ∧
      exec (streamCommand dec) { t with din := t.dout, chain := s.chain } =
        .next { t with din := t.dout, dout := s.din } := by
  refine ⟨_, exec_streamCommand enc s, ?_⟩
  simp only [exec_streamCommand, h s.ks s.chain s.din]

/-- Settles O25: in either mode decryption undoes one block of encryption. -/
theorem chainedBlockRoundTrip : Obligations.ChainedBlockRoundTrip := fun s =>
  ⟨cbcDecrypt_undoesBlock.exec s, cfbDecrypt_undoesBlock.exec s⟩

/-! ### A stream, its first chunk and the rest (R200 to R208) -/

/-- A block depends on the bytes of its chunk only. -/
theorem readBlock_congr (al : ShortAlign) {buf buf' : List Byte} {off off' : Nat}
    (h : memRead buf off 8 = memRead buf' off' 8) :
    readBlock al buf off = readBlock al buf' off' := by
  simp only [readBlock, h]

/-- The block at an offset of a buffer's rest. -/
theorem readBlock_drop (al : ShortAlign) (buf : List Byte) (m off : Nat) :
    readBlock al (buf.drop m) off = readBlock al buf (m + off) :=
  readBlock_congr al (by rw [memRead, memRead, List.drop_drop])

theorem chunks_of_ne_nil (al : ShortAlign) {text : List Byte} (h : text ≠ []) :
    chunks al text = readBlock al text 0 :: chunks al (text.drop 8) := by
  have hpos : 0 < text.length := List.length_pos_iff.mpr h
  have hcount : (text.length + 7) / 8 = (text.length - 8 + 7) / 8 + 1 := by omega
  have hshift (j : Nat) : readBlock al text (8 * (j + 1)) = readBlock al (text.drop 8) (8 * j) := by
    rw [readBlock_drop, Nat.mul_succ, Nat.add_comm]
  simp only [chunks, List.length_drop, hcount, List.range_succ_eq_map, List.map_cons, List.map_map,
    Function.comp_def, hshift, Nat.mul_zero]

/-- The result block and the next chaining value of a stream's first chunk. -/
def firstBlock (op : StreamOp) (al : ShortAlign) (text key : List Byte) (iv : Word) : Word × Word :=
  streamBlock op (streamSchedule al key) iv (readBlock al text 0).1

/-- The result of the first chunk, cut to the chunk's length, then that of the rest. -/
theorem streamResult_of_ne_nil (op : StreamOp) (al : ShortAlign) {text : List Byte}
    (key : List Byte) (iv : Word) (h : text ≠ []) :
    streamResult op al text key iv =
      (blockToBytes (firstBlock op al text key iv).1).take text.length ++
        streamResult op al (text.drop 8) key (firstBlock op al text key iv).2 := by
  have htake (v : Word) :
      (blockToBytes v).take (min 8 text.length) = (blockToBytes v).take text.length := by
    rw [← List.take_take]
    exact List.take_of_length_le (List.length_take_le' ..)
  simp only [streamResult, chunks_of_ne_nil al h, List.map_cons, streamBlocks, assemble,
    List.zip_cons_cons, List.flatMap_cons, readBlock_snd, Nat.sub_zero, htake, firstBlock]

theorem streamResult_nil (op : StreamOp) (al : ShortAlign) (key : List Byte) (iv : Word) :
    streamResult op al [] key iv = [] := rfl

/-- Induction over a stream by chunks: a text follows from its rest after 8 bytes. -/
theorem chunk_induction {motive : List Byte → Prop} (nil : motive [])
    (chunk : ∀ text, text ≠ [] → motive (text.drop 8) → motive text) :
    ∀ text, motive text := by
  intro text
  induction hn : text.length using Nat.strong_induction_on generalizing text with
  | _ n ih =>
    by_cases h : text = []
    · exact h ▸ nil
    · have hpos : 0 < text.length := List.length_pos_iff.mpr h
      exact chunk text h (ih _ (by rw [List.length_drop]; omega) _ rfl)

/-- Settles O27: each chunk's result is cut to the chunk's length. -/
theorem streamLength : Obligations.StreamLength := by
  intro op al text key iv
  induction text using chunk_induction generalizing iv with
  | nil => rfl
  | chunk text h ih =>
    rw [streamResult_of_ne_nil op al key iv h, List.length_append, ih, List.length_take,
      length_blockToBytes, List.length_drop]
    omega

/-! ### The round trip (R212) -/

/-- The writer undoes the reader on a whole chunk (R57, R59). -/
theorem blockToBytes_readBlock (al : ShortAlign) {text : List Byte} (h : 8 ≤ text.length) :
    blockToBytes (readBlock al text 0).1 = text.take 8 := by
  have hlen : (text.take 8).length = 8 := by simpa using h
  have hread : readBlock al text 0 = readBlock al (text.take 8) 0 :=
    readBlock_congr al (by simp [memRead])
  rw [hread]
  cases al with
  | low => simpa [hlen] using blockToBytes_readBlock_low hlen.le
  | high => simpa [hlen] using blockToBytes_readBlock_high hlen.le

/-- The first block of a stream that starts with the bytes of a block. -/
theorem readBlock_blockToBytes_append (al : ShortAlign) (v : Word) (rest : List Byte) :
    readBlock al (blockToBytes v ++ rest) 0 = (v, 8) :=
  (readBlock_congr al rfl).trans (readBlock_blockToBytes al v)

/-- A stream operation on a text of at least one whole chunk. -/
theorem streamResult_of_whole (op : StreamOp) (al : ShortAlign) {text : List Byte} (key : List Byte)
    (iv : Word) (h : 8 ≤ text.length) :
    streamResult op al text key iv =
      blockToBytes (firstBlock op al text key iv).1 ++
        streamResult op al (text.drop 8) key (firstBlock op al text key iv).2 := by
  rw [streamResult_of_ne_nil op al key iv (List.ne_nil_of_length_pos (by omega)),
    List.take_of_length_le h]

/-- A stream operation on the bytes of a block and what follows. -/
theorem streamResult_blockToBytes_append (op : StreamOp) (al : ShortAlign) (v : Word)
    (rest key : List Byte) (iv : Word) :
    streamResult op al (blockToBytes v ++ rest) key iv =
      blockToBytes (streamBlock op (streamSchedule al key) iv v).1 ++
        streamResult op al rest key (streamBlock op (streamSchedule al key) iv v).2 := by
  rw [streamResult_of_whole op al key iv (by simp), firstBlock, readBlock_blockToBytes_append]
  rfl

/-- Where dec undoes each block of enc, it undoes enc on a text of whole chunks. -/
theorem UndoesBlock.streamResult {dec enc : StreamOp} (hundo : UndoesBlock dec enc)
    (al : ShortAlign) (key : List Byte) (iv : Word) {text : List Byte} (h : text.length % 8 = 0) :
    streamResult dec al (streamResult enc al text key iv) key iv = text := by
  induction text using chunk_induction generalizing iv with
  | nil => rw [streamResult_nil, streamResult_nil]
  | chunk text hne ih =>
    have hpos : 0 < text.length := List.length_pos_iff.mpr hne
    have h8 : 8 ≤ text.length := by omega
    have hrest : (text.drop 8).length % 8 = 0 := by rw [List.length_drop]; omega
    rw [streamResult_of_whole enc al key iv h8, streamResult_blockToBytes_append, firstBlock, hundo,
      ih _ hrest, blockToBytes_readBlock al h8, List.take_append_drop]

/-- Settles O28: in each mode decryption undoes each block. -/
theorem streamRoundTrip : Obligations.StreamRoundTrip := fun al _ key iv h =>
  ⟨ecbDecrypt_undoesBlock.streamResult al key 0 h, cbcDecrypt_undoesBlock.streamResult al key iv h,
    cfbDecrypt_undoesBlock.streamResult al key iv h⟩

/-! ### Chunk j of a stream's result (R202) -/

/-- What follows the first chunk of the result is the result of what follows the first chunk of the
text. -/
theorem drop_streamResult (op : StreamOp) (al : ShortAlign) (text key : List Byte) (iv : Word) :
    (streamResult op al text key iv).drop 8 =
      streamResult op al (text.drop 8) key (firstBlock op al text key iv).2 := by
  by_cases h8 : 8 ≤ text.length
  · rw [streamResult_of_whole op al key iv h8, List.drop_left' (length_blockToBytes _)]
  · have hshort : (streamResult op al text key iv).length ≤ 8 := by rw [streamLength]; omega
    rw [List.drop_of_length_le hshort, List.drop_of_length_le (by omega), streamResult_nil]

/-- The operations that chain on the block just read, which is the ciphertext (R205, R207). -/
def ChainsOnInput (op : StreamOp) : Prop :=
  ∀ (ks : Vector RoundKey 16) (prev x : Word), (streamBlock op ks prev x).2 = x

theorem cbcDecrypt_chainsOnInput : ChainsOnInput .cbcDecrypt := fun _ _ _ => rfl
theorem cfbDecrypt_chainsOnInput : ChainsOnInput .cfbDecrypt := fun _ _ _ => rfl

/-- After its first chunk, the result of such an operation does not depend on the IV. -/
theorem ChainsOnInput.drop_streamResult_congr {op : StreamOp} (h : ChainsOnInput op)
    (al : ShortAlign) (text key : List Byte) (iv iv' : Word) :
    (streamResult op al text key iv).drop 8 = (streamResult op al text key iv').drop 8 := by
  rw [drop_streamResult, drop_streamResult, firstBlock, firstBlock, h, h]

/-- Settles O30: CBC and CFB decryption chain on the ciphertext. -/
theorem wrongIvFirstBlockOnly : Obligations.WrongIvFirstBlockOnly := fun al text key iv iv' =>
  ⟨cbcDecrypt_chainsOnInput.drop_streamResult_congr al text key iv iv',
    cfbDecrypt_chainsOnInput.drop_streamResult_congr al text key iv iv'⟩

/-- The first chunk of the result. -/
theorem memRead_streamResult_zero (op : StreamOp) (al : ShortAlign) (text key : List Byte)
    (iv : Word) :
    memRead (streamResult op al text key iv) 0 8 =
      (blockToBytes (firstBlock op al text key iv).1).take text.length := by
  by_cases h8 : 8 ≤ text.length
  · rw [streamResult_of_whole op al key iv h8, List.take_of_length_le h8]
    exact List.take_left' (length_blockToBytes _)
  · by_cases h : text = []
    · subst h
      rfl
    · rw [streamResult_of_ne_nil op al key iv h, List.drop_of_length_le (by omega),
        streamResult_nil, List.append_nil, memRead, List.drop_zero, List.take_take]
      congr 1
      omega

/-- prev_j, the chaining value before chunk j (R204 to R207). -/
def chainBefore (op : StreamOp) (al : ShortAlign) (text key : List Byte) (iv : Word) : Nat → Word
  | 0 => iv
  | j + 1 =>
    (streamBlock op (streamSchedule al key) (chainBefore op al text key iv j)
      (readBlock al text (8 * j)).1).2

theorem drop_mul_streamResult (op : StreamOp) (al : ShortAlign) (text key : List Byte) (iv : Word)
    (j : Nat) :
    (streamResult op al text key iv).drop (8 * j) =
      streamResult op al (text.drop (8 * j)) key (chainBefore op al text key iv j) := by
  induction j with
  | zero => rfl
  | succ j ih =>
    rw [Nat.mul_succ, ← List.drop_drop, ih, drop_streamResult, List.drop_drop, firstBlock,
      readBlock_drop, Nat.add_zero (8 * j), chainBefore]

/-- Chunk j of the result is the first n_j bytes of y_j (R202). -/
theorem memRead_streamResult (op : StreamOp) (al : ShortAlign) (text key : List Byte) (iv : Word)
    (j : Nat) :
    memRead (streamResult op al text key iv) (8 * j) 8 =
      (blockToBytes (streamBlock op (streamSchedule al key) (chainBefore op al text key iv j)
        (readBlock al text (8 * j)).1).1).take (text.length - 8 * j) := by
  rw [memRead, drop_mul_streamResult, ← List.drop_zero (l := streamResult ..), ← memRead,
    memRead_streamResult_zero, firstBlock, readBlock_drop, Nat.add_zero, List.length_drop]

/-- Settles O29: a result block of ECB encryption is DES_E of its block, and a whole chunk keeps all
of it. -/
theorem ecbDeterminism : Obligations.EcbDeterminism := by
  intro al text text' key i j hi hj h
  have hwhole (v : Word) {n : Nat} (hn : 8 ≤ n) : (blockToBytes v).take n = blockToBytes v :=
    List.take_of_length_le hn
  simp only [ecbEncrypt, memRead_streamResult, streamBlock, readBlock_congr al h]
  rw [hwhole _ (by omega), hwhole _ (by omega)]

/-- Chunk j of the result depends on the text by its length, x_j and prev_j only. -/
theorem memRead_streamResult_congr (op : StreamOp) (al : ShortAlign) {text text' : List Byte}
    (key : List Byte) (iv : Word) {j : Nat} (hlen : text.length = text'.length)
    (hblock : memRead text (8 * j) 8 = memRead text' (8 * j) 8)
    (hchain : chainBefore op al text key iv j = chainBefore op al text' key iv j) :
    memRead (streamResult op al text key iv) (8 * j) 8 =
      memRead (streamResult op al text' key iv) (8 * j) 8 := by
  rw [memRead_streamResult, memRead_streamResult, readBlock_congr al hblock, hchain, hlen]

/-- ECB has no chaining (R203). -/
theorem chainBefore_ecbEncrypt (al : ShortAlign) (text key : List Byte) (iv : Word) :
    ∀ j, chainBefore .ecbEncrypt al text key iv j = iv
  | 0 => rfl
  | j + 1 => chainBefore_ecbEncrypt al text key iv j

/-- An operation that chains on its input has the same chaining value before a chunk if the chunk
before that is the same. -/
theorem ChainsOnInput.chainBefore_congr {op : StreamOp} (h : ChainsOnInput op) (al : ShortAlign)
    {text text' : List Byte} (key : List Byte) (iv : Word) {i j : Nat}
    (hsame : ∀ k, k ≠ i → memRead text (8 * k) 8 = memRead text' (8 * k) 8) (hj : j ≠ i + 1) :
    chainBefore op al text key iv j = chainBefore op al text' key iv j := by
  cases j with
  | zero => rfl
  | succ k =>
    have hk : k ≠ i := fun heq => hj (congrArg (· + 1) heq)
    rw [chainBefore, chainBefore, h, h, readBlock_congr al (hsame k hk)]

/-- Settles O31: chunk j of the result depends on chunk j of the text, and in CBC and CFB decryption
on the chunk before it. -/
theorem changeStaysLocal : Obligations.ChangeStaysLocal := by
  refine fun al text text' key iv i hlen hsame j hj => ⟨?_, fun hnext => ⟨?_, ?_⟩⟩
  · exact memRead_streamResult_congr .ecbEncrypt al key 0 hlen (hsame j hj)
      (by rw [chainBefore_ecbEncrypt, chainBefore_ecbEncrypt])
  · exact memRead_streamResult_congr .cbcDecrypt al key iv hlen (hsame j hj)
      (cbcDecrypt_chainsOnInput.chainBefore_congr al key iv hsame hnext)
  · exact memRead_streamResult_congr .cfbDecrypt al key iv hlen (hsame j hj)
      (cfbDecrypt_chainsOnInput.chainBefore_congr al key iv hsame hnext)

end Sys2Proof.Machine
end

section
/-! PROOFS. The register-level stream procedure on the device (44_modes.md R209), under every order
of events without a reset. -/
namespace Sys2Proof.Machine

/-! ### Runs under every order of events (R62) -/

/-- Under every order of events without a reset, the device in s with the operations ops for the
host comes to be in t with the operations ops' still to do. -/
def Leads (s : State) (ops : List HostOp) (t : State) (ops' : List HostOp) : Prop :=
  ∀ turns : List Turn, Turn.reset ∉ turns →
    ∃ (n : Nat) (turns' : List Turn), Turn.reset ∉ turns' ∧
      Host.Core.run Sys2Proof.core n { s with script := ops, turns := turns } =
        .next { t with script := ops', turns := turns' }

theorem Leads.refl (s : State) (ops : List HostOp) : Leads s ops s ops :=
  fun turns h => ⟨0, turns, h, rfl⟩

theorem Leads.trans {s t u : State} {ops ops' ops'' : List HostOp} (hst : Leads s ops t ops')
    (htu : Leads t ops' u ops'') : Leads s ops u ops'' := by
  intro turns h
  obtain ⟨m, turns₁, h₁, hm⟩ := hst turns h
  obtain ⟨n, turns₂, h₂, hn⟩ := htu turns₁ h₁
  exact ⟨m + n, turns₂, h₂, (run_add m n hm).trans hn⟩

/-- It is enough that the step with no turns listed arrives, and that each turn listed either
arrives or passes with nothing changed. -/
theorem Leads.of_step {s t : State} {ops ops' : List HostOp}
    (hnil : step { s with script := ops, turns := [] } =
      .next { t with script := ops', turns := [] })
    (hcons : ∀ (x : Turn) (turns : List Turn), x ≠ .reset →
      step { s with script := ops, turns := x :: turns } =
          .next { t with script := ops', turns := turns } ∨
        step { s with script := ops, turns := x :: turns } =
          .next { s with script := ops, turns := turns }) :
    Leads s ops t ops' := by
  intro turns
  induction turns with
  | nil => exact fun h => ⟨1, [], h, run_one hnil⟩
  | cons x turns ih =>
    intro h
    obtain ⟨hx, hturns⟩ := List.ne_and_not_mem_of_not_mem_cons h
    obtain hstep | hstep := hcons x turns hx.symm
    · exact ⟨1, turns, hturns, run_one hstep⟩
    · obtain ⟨n, turns', hturns', hn⟩ := ih hturns
      exact ⟨n + 1, turns', hturns', (run_succ n hstep).trans hn⟩

/-! ### One event (R221, R223, R266) -/

theorem step_host {s : State} {turns : List Turn} (hturns : s.turns = .host :: turns) :
    step s = hostTurn { s with turns := turns } := by
  simp [step, nextTurn, popTurn, hturns]

/-- With no command pending and no turns listed, the host goes on (log entry 3). -/
theorem step_host_of_nil {s : State} (hturns : s.turns = []) (hidle : s.pend = none) :
    step s = hostTurn s := by
  have hpop : popTurn s = s := by rw [popTurn, hturns, List.tail_nil, ← hturns]
  have hnext : nextTurn s = .host := by simp [nextTurn, hturns, State.busy, hidle]
  simp only [step, hnext, hpop]

/-- With no command pending, a turn listed for the core passes (log entry 16). -/
theorem step_core_idle {s : State} {turns : List Turn} (hturns : s.turns = .core :: turns)
    (hidle : s.pend = none) : step s = .next { s with turns := turns } := by
  simp [step, nextTurn, popTurn, hturns, coreTurn, hidle]

/-- The completion of a command depends on no field but the registers (R221, R224). -/
theorem exec_control {d : Instr} {s t : State} (h : exec d s = .next t) (pend : Option Instr)
    (script : List HostOp) (turns : List Turn) :
    exec d { s with pend := pend, script := script, turns := turns } =
      .next { t with script := script, turns := turns } := by
  cases d <;> cases h <;> rfl

/-- While a command is pending, WAIT polls and changes nothing (R223). -/
theorem hostTurn_wait_busy {s : State} {ops : List HostOp} (hscript : s.script = .wait :: ops)
    (hbusy : s.busy = true) : hostTurn s = .next s := by
  simp only [hostTurn, hscript, hostRead, statusWord_getLsbD_zero, hbusy, if_true]

/-- With no command pending, WAIT ends (R223). -/
theorem hostTurn_wait_idle {s : State} {ops : List HostOp} (hscript : s.script = .wait :: ops)
    (hbusy : s.busy = false) : hostTurn s = .next (popScript s) := by
  simp only [hostTurn, hscript, hostRead, statusWord_getLsbD_zero, hbusy, Bool.false_eq_true,
    if_false]

/-! ### The transactions of the procedure (R209) -/

/-- With no command pending, the host comes to do its next operation. -/
theorem leads_host {s t : State} {ops ops' : List HostOp} (hidle : s.pend = none)
    (hop : ∀ turns, hostTurn { s with script := ops, turns := turns } =
      .next { t with script := ops', turns := turns }) :
    Leads s ops t ops' := by
  have hnil := step_host_of_nil (s := { s with script := ops, turns := [] }) rfl hidle
  refine Leads.of_step (hnil.trans (hop [])) fun x turns hx => ?_
  cases x with
  | host => exact .inl ((step_host rfl).trans (hop turns))
  | core => exact .inr (step_core_idle rfl hidle)
  | reset => exact absurd rfl hx

/-- With no command pending, a write of an operand register is done (R53). -/
theorem leads_write_operand {s t : State} {r : Slot} {v : Word} {store : State → State}
    (hidle : s.pend = none) (hwrite : ∀ u, hostWrite r v u = writeOperand store u)
    (hstore : ∀ script turns, store { s with script := script, turns := turns } =
      { t with script := script, turns := turns })
    (ops : List HostOp) : Leads s (.write r v :: ops) t ops := by
  refine leads_host hidle fun turns => ?_
  have hbusy : ({ s with script := ops, turns := turns } : State).busy = false :=
    (busy_eq_false_iff _).mpr hidle
  simp only [hostTurn, popScript, List.tail_cons, hwrite, writeOperand, hbusy, Bool.false_eq_true,
    if_false, hstore]

theorem leads_write_key {s : State} (hidle : s.pend = none) (v : Word) (ops : List HostOp) :
    Leads s (.write .key v :: ops) { s with key := v } ops :=
  leads_write_operand hidle (fun _ => rfl) (fun _ _ => rfl) ops

theorem leads_write_din {s : State} (hidle : s.pend = none) (v : Word) (ops : List HostOp) :
    Leads s (.write .din v :: ops) { s with din := v } ops :=
  leads_write_operand hidle (fun _ => rfl) (fun _ _ => rfl) ops

theorem leads_write_chain {s : State} (hidle : s.pend = none) (v : Word) (ops : List HostOp) :
    Leads s (.write .chain v :: ops) { s with chain := v } ops :=
  leads_write_operand hidle (fun _ => rfl) (fun _ _ => rfl) ops

theorem leads_read_dout {s : State} (hidle : s.pend = none) (ops : List HostOp) :
    Leads s (.read .dout :: ops) { s with reads := s.reads ++ [s.dout] } ops :=
  leads_host hidle fun _ => rfl

/-- A legal command that the host writes is accepted, if a key is loaded or it needs none (R220). -/
theorem leads_issue {s : State} {d : Instr} (hidle : s.pend = none)
    (hk : needsKV d = true → s.kv = true) (ops : List HostOp) :
    Leads s (.write .cmd (encode d) :: ops) { s with pend := some d } ops :=
  leads_host hidle fun _ => congrArg Host.Outcome.next
    (issueCommand_accept hidle ((decodeIffEncode (encode d) d).mpr rfl) hk)

/-- While the host waits, the pending command comes to be performed (R221, R266). -/
theorem leads_completion {s t : State} {d : Instr} (hexec : exec d s = .next t)
    (ops : List HostOp) : Leads { s with pend := some d } (.wait :: ops) t (.wait :: ops) := by
  refine Leads.of_step (exec_control hexec (some d) (.wait :: ops) []) fun x turns hx => ?_
  cases x with
  | host => exact .inr ((step_host rfl).trans (hostTurn_wait_busy rfl rfl))
  | core => exact .inl (exec_control hexec (some d) (.wait :: ops) turns)
  | reset => exact absurd rfl hx

/-- A command that the host writes and waits for is performed, and then the host goes on. -/
theorem leads_command {s t : State} {d : Instr} (hidle : s.pend = none)
    (hk : needsKV d = true → s.kv = true) (hexec : exec d s = .next t) (ops : List HostOp) :
    Leads s (.write .cmd (encode d) :: .wait :: ops) t ops := by
  have hdone : t.pend = none := by rw [(exec_cases hexec).1]
  have hwait : Leads t (.wait :: ops) t ops := leads_host hdone fun _ =>
    hostTurn_wait_idle rfl ((busy_eq_false_iff _).mpr hdone)
  exact (leads_issue hidle hk _).trans ((leads_completion hexec ops).trans hwait)

/-! ### The parts of the procedure (R209) -/

/-- The first part loads the key's schedule, and the IV for an operation that has one. -/
theorem leads_streamPrologue (op : StreamOp) (al : ShortAlign) (key : List Byte) (iv : Word)
    {s : State} (hidle : s.pend = none) (ops : List HostOp) :
    Leads s (streamPrologue op al key iv ++ ops)
      { s with
        key := streamKey al key
        chain := if loadsIV op then iv else s.chain
        ks := streamSchedule al key
        kv := true
        pend := none } ops := by
  have hload (rest : List HostOp) :
      Leads s (.write .key (streamKey al key) :: .write .cmd (encode .keyldRaw) :: .wait :: rest)
        { s with
          key := streamKey al key, ks := streamSchedule al key, kv := true, pend := none } rest :=
    (leads_write_key hidle _ _).trans
      (leads_command (s := { s with key := streamKey al key }) hidle
        (fun h => Bool.noConfusion h) (exec_keyldRaw _) rest)
  cases h : loadsIV op with
  | false => simpa [streamPrologue, h] using hload ops
  | true =>
    simp only [streamPrologue, h, if_true]
    exact (hload _).trans (leads_write_chain rfl iv ops)

/-- The loop body computes one block from CHAIN, leaves the next chaining value there, and reads the
block's result. -/
theorem leads_streamChunkOps (op : StreamOp) {s : State} (hidle : s.pend = none)
    (hkv : s.kv = true) (v : Word) (ops : List HostOp) :
    Leads s (streamChunkOps op v ++ ops)
      { s with
        din := v
        dout := (streamBlock op s.ks s.chain v).1
        chain := (streamBlock op s.ks s.chain v).2
        pend := none
        reads := s.reads ++ [(streamBlock op s.ks s.chain v).1] } ops :=
  (leads_write_din hidle v _).trans <|
    (leads_command (s := { s with din := v }) hidle (fun _ => hkv)
      (exec_streamCommand op _) _).trans (leads_read_dout rfl ops)

/-- The loop computes all blocks from CHAIN, leaves the last chaining value there, and reads the
results; nothing else changes but DIN and DOUT. -/
theorem leads_streamLoop (op : StreamOp) (xs : List Word) :
    ∀ {s : State}, s.pend = none → s.kv = true →
      ∃ din dout, Leads s (xs.flatMap (streamChunkOps op))
        { s with
          din := din
          dout := dout
          chain := streamChain op s.ks s.chain xs
          reads := s.reads ++ streamBlocks op s.ks s.chain xs } [] := by
  induction xs with
  | nil =>
    intro s _ _
    refine ⟨s.din, s.dout, ?_⟩
    rw [streamBlocks, List.append_nil]
    exact Leads.refl s []
  | cons x xs ih =>
    intro s hidle hkv
    have hchunk := leads_streamChunkOps op hidle hkv x (xs.flatMap (streamChunkOps op))
    rw [← hidle] at hchunk
    obtain ⟨din, dout, hrest⟩ := ih (s := { s with
      din := x
      dout := (streamBlock op s.ks s.chain x).1
      chain := (streamBlock op s.ks s.chain x).2
      reads := s.reads ++ [(streamBlock op s.ks s.chain x).1] }) hidle hkv
    rw [List.append_assoc] at hrest
    exact ⟨din, dout, hchunk.trans hrest⟩

/-- An operation without an IV has no chaining: its results do not depend on prev, which it carries
along (R203, R208). -/
theorem stream_of_not_loadsIV {op : StreamOp} (h : loadsIV op = false) (ks : Vector RoundKey 16)
    (prev prev' : Word) (xs : List Word) :
    streamBlocks op ks prev xs = streamBlocks op ks prev' xs ∧
      streamChain op ks prev xs = prev := by
  induction xs with
  | nil => exact ⟨rfl, rfl⟩
  | cons x xs ih =>
    obtain ⟨hblocks, hchain⟩ := ih
    cases op with
    | ecbEncrypt | ecbDecrypt => exact ⟨congrArg (List.cons _) hblocks, hchain⟩
    | _ => cases h

/-- The whole procedure: without an IV it starts from the CHAIN it finds, which plays no part. -/
theorem leads_streamScript (op : StreamOp) (al : ShortAlign) (text key : List Byte) (iv : Word)
    {s : State} (hidle : s.pend = none) :
    ∃ din dout, Leads s (streamScript op al text key iv)
      { s with
        key := streamKey al key
        din := din
        dout := dout
        chain :=
          if loadsIV op then
            streamChain op (streamSchedule al key) iv ((chunks al text).map Prod.fst)
          else s.chain
        ks := streamSchedule al key
        kv := true
        pend := none
        reads := s.reads ++
          streamBlocks op (streamSchedule al key) iv ((chunks al text).map Prod.fst) } [] := by
  obtain ⟨din, dout, hloop⟩ := leads_streamLoop op ((chunks al text).map Prod.fst) (s := { s with
    key := streamKey al key
    chain := if loadsIV op then iv else s.chain
    ks := streamSchedule al key
    kv := true
    pend := none }) rfl rfl
  refine ⟨din, dout, (leads_streamPrologue op al key iv hidle _).trans ?_⟩
  cases h : loadsIV op with
  | true => simpa only [h, if_true] using hloop
  | false =>
    obtain ⟨hblocks, hchain⟩ := stream_of_not_loadsIV h (streamSchedule al key) s.chain iv
      ((chunks al text).map Prod.fst)
    simpa only [h, Bool.false_eq_true, if_false, hblocks, hchain] using hloop

/-- Settles O32: the procedure leads to its end under the order of events that s lists. -/
theorem streamProcedureOnDevice : Obligations.StreamProcedureOnDevice := by
  intro op al text key iv s hidle hscript hturns
  obtain ⟨din, dout, hrun⟩ := leads_streamScript op al text key iv hidle
  obtain ⟨n, turns', -, hn⟩ := hrun s.turns fun h => hturns _ h rfl
  rw [← hscript] at hn
  exact ⟨n, _, _, hn, rfl, rfl, rfl, rfl, rfl, rfl, rfl, rfl, rfl⟩

end Sys2Proof.Machine
end

section
/-! PROOFS. The life of a command (45_control.md): the checks at its issue, its completion by the
core, and NOP. -/
namespace Sys2Proof.Machine

/-! ### The checks of a CMD write (R220) -/

/-- The commands that read KS, by name (R81). -/
theorem needsKV_iff (d : Instr) :
    needsKV d = true ↔
      d ∈ [Instr.enc, .dec, .cbcEnc, .cbcDec, .cfbEnc, .cfbDec] ∨
      ∃ i : Fin 16, d = .ffunc i ∨ d = .rkrd i := by
  cases d <;> simp [needsKV]

/-- While a command is pending, every CMD write is refused, whatever its word. -/
theorem issueCommand_busy {s : State} (hbusy : s.busy = true) (w : Word) :
    issueCommand w s = raise .busyWrite s := by
  rw [issueCommand, if_pos hbusy]

/-- A command that reads KS is refused while no key is loaded. -/
theorem issueCommand_noKey {w : Word} {d : Instr} {s : State} (hidle : s.pend = none)
    (hw : decode w = .ok d) (hneeds : needsKV d = true) (hkv : s.kv = false) :
    issueCommand w s = raise .noKey s := by
  simp [issueCommand, State.busy, hidle, hw, hneeds, hkv]

/-- Settles O38, check by check: each clause is one outcome of IssueCommand. -/
theorem issueChecks : Obligations.IssueChecks := by
  intro s w refused readsKS
  rw [step_hostDoes_write, hostWrite]
  refine ⟨fun hpend => ?_, fun hidle hw => ?_, fun d hidle hw hreads hkv => ?_,
    fun d hidle hw hk => ?_⟩
  · rw [issueCommand_busy (Option.isSome_iff_ne_none.mpr hpend)]
    rfl
  · rw [issueCommand_illegal hidle hw]
    rfl
  · rw [issueCommand_noKey hidle hw ((needsKV_iff d).mpr hreads) hkv]
    rfl
  · rw [issueCommand_accept hidle hw fun hneeds => hk ((needsKV_iff d).mp hneeds), accept]

/-! ### The core's turn and the completion (R221) -/

/-- Settles O40: the core's turn is exec of the pending command, which leaves the error record. -/
theorem coreTurn_performs_pending : Obligations.CoreTurn := by
  refine fun s => ⟨step_core_idle (s := s.turnOf .core) rfl, fun d hd => ⟨step_turnOf_core hd, fun t ht => ?_⟩⟩
  rw [step_turnOf_core hd] at ht
  obtain ⟨hframe, -⟩ := exec_cases ht
  rw [hframe]
  exact ⟨rfl, rfl, rfl⟩

/-- Every command completes, from every state: the step cannot fail. -/
theorem exec_completes (d : Instr) (s : State) : ∃ t, exec d s = .next t := by
  cases d <;> exact ⟨_, rfl⟩

/-- Settles O41, from the registers in which each command leaves its results. -/
theorem everyCommandCompletes : Obligations.EveryCommandCompletes := by
  intro d s
  obtain ⟨t, ht⟩ := exec_completes d s
  obtain ⟨hframe, hload⟩ := exec_cases ht
  obtain ⟨hdout, hchain⟩ := exec_dout_chain ht
  refine ⟨t, ht, hframe, fun hd => ?_, fun hd => ?_, fun hd => ?_⟩
  · exact hdout fun hmem => not_mem_of_dout_mem_resultSlots hmem hd
  · exact hchain (mt mem_of_chain_mem_resultSlots hd)
  · obtain hkeep | ⟨rfl, -⟩ | ⟨rfl, -⟩ := hload
    · exact hkeep
    · exact absurd hd (by decide)
    · exact absurd hd (by decide)

/-! ### NOP (R222) -/

/-- The word 0 is NOP, which needs no key, so an idle device accepts it. -/
theorem issueCommand_zero {s : State} (hidle : s.pend = none) :
    issueCommand 0 s = accept .nop s :=
  issueCommand_accept hidle ((decodeIffEncode 0 .nop).mpr rfl) (fun h => Bool.noConfusion h)

/-- The completion of NOP takes back its acceptance. -/
theorem exec_nop_accept {s : State} (hidle : s.pend = none) :
    exec .nop (accept .nop s) = .next s := by
  change Host.Outcome.next { s with pend := none } = .next s
  rw [← hidle]

/-- The host's turn carries out the write that is next in its program (R54). -/
theorem hostTurn_write {s : State} {r : Slot} {v : Word} {ops : List HostOp}
    (hscript : s.script = .write r v :: ops) : hostTurn s = .next (hostWrite r v (popScript s)) := by
  rw [hostTurn, hscript]

/-- An idle device whose host issues a NOP and waits is the same device three steps later, with no
turns listed (log entry 3). -/
theorem run_nop_wait {s : State} {ops : List HostOp} (hidle : s.pend = none)
    (hturns : s.turns = []) (hscript : s.script = .write .cmd 0 :: .wait :: ops) :
    Host.Core.run Sys2Proof.core 3 s = .next (popScript (popScript s)) := by
  have hissue : step s = .next (accept .nop (popScript s)) := by
    rw [step_host_of_nil hturns hidle, hostTurn_write hscript, hostWrite,
      issueCommand_zero (s := popScript s) hidle]
  have hcompletion : step (accept .nop (popScript s)) = .next (popScript s) := by
    rw [step_turns_nil (s := accept .nop (popScript s)) hturns rfl,
      exec_nop_accept (s := popScript s) hidle]
  have hwait : step (popScript s) = .next (popScript (popScript s)) := by
    have hrest : (popScript s).script = .wait :: ops := by simp [hscript]
    rw [step_host_of_nil (s := popScript s) hturns hidle,
      hostTurn_wait_idle hrest ((busy_eq_false_iff _).mpr hidle)]
  rw [run_succ 2 hissue, run_succ 1 hcompletion, run_one hwait]

/-- Settles O42: acceptance and completion of NOP cancel; the run from reset is one of an idle
device. -/
theorem nopPulse : Obligations.NopPulse := by
  refine ⟨fun s hidle => ⟨?_, exec_nop_accept hidle, ?_⟩, run_nop_wait rfl rfl rfl⟩
  · rw [step_hostDoes_write, hostWrite, issueCommand_zero (s := s.turnOf .core) hidle]
    rfl
  · exact (step_turnOf_core rfl).trans (exec_nop_accept hidle)

end Sys2Proof.Machine
end

section
/-! PROOFS. Errors and exceptions (60_exceptions.md): which event raises an error, the write that
races a completion, the clearing of the error record, and the idle device. -/
namespace Sys2Proof.Machine

/-! ### The events that raise an error (R232) -/

/-- A register write that grows the ghost record does nothing but raise one error. -/
theorem hostWrite_raised {r : Slot} {v : Word} {s : State}
    (h : (hostWrite r v s).raised ≠ s.raised) :
    ∃ e, e ≠ .none ∧ hostWrite r v s = raise e s := by
  obtain hraise | ⟨-, -, hw⟩ | ⟨-, -, hw⟩ | ⟨-, -, hw⟩ | ⟨d, -, -, -, -, hw⟩ |
    ⟨-, -, hw⟩ | ⟨-, -, hw⟩ := hostWrite_cases r v s
  · exact hraise
  all_goals exact absurd (congrArg State.raised hw) h

/-- A step that grows the ghost record is a host write that raises one error. -/
theorem step_raised {s t : State} (h : step s = .next t) (hne : t.raised ≠ s.raised) :
    nextTurn s = .host ∧ nextWrite s ≠ none ∧
      ∃ e, e ≠ .none ∧ t = raise e (popScript (popTurn s)) := by
  obtain ⟨_, _, _, rfl⟩ | ⟨-, rfl⟩ | ⟨d, -, -, he⟩ | ⟨r, v, hn, hw, rfl⟩ := step_device_cases h
  · exact absurd rfl hne
  · exact absurd rfl hne
  · obtain ⟨ht, -⟩ := exec_cases he
    exact absurd (congrArg State.raised ht) hne
  · exact ⟨hn, by simp [hw], hostWrite_raised hne⟩

/-- Settles O50: the step is a host write, and raise says what it does. -/
theorem raiseEffect : Obligations.RaiseEffect := fun _ _ h hne => step_raised h hne

/-! ### A write that races a completion (R234) -/

theorem writeOperand_idle (store : State → State) {s : State} (hidle : s.pend = none) :
    writeOperand store s = store s := by
  rw [writeOperand, (busy_eq_false_iff s).mpr hidle, if_neg Bool.false_ne_true]

/-- While a command is pending, a write of CMD or of an operand register is refused (R53, R220). -/
theorem hostWrite_busy {r : Slot} (hr : r ∈ [Slot.cmd, .key, .din, .chain]) (v : Word) {s : State}
    (hbusy : s.busy = true) : hostWrite r v s = raise .busyWrite s := by
  obtain rfl | rfl | rfl | rfl : r = .cmd ∨ r = .key ∨ r = .din ∨ r = .chain := by simpa using hr
  · exact issueCommand_busy hbusy v
  · exact if_pos hbusy
  · exact if_pos hbusy
  · exact if_pos hbusy

/-- An error raised just before a completion and the completion commute (R234). -/
theorem exec_raise {d : Instr} {s r : State} (h : exec d s = .next r) (e : ErrCode) :
    exec d (raise e s) = .next (raise e r) := by
  cases d <;> cases h <;> rfl

/-- A completion leaves the host's next operation for the next turn. -/
theorem exec_hostDoes {d : Instr} {s r : State} (h : exec d s = .next r) (op : HostOp) :
    exec d (s.hostDoes op) = .next (r.hostDoes op) := by
  cases d <;> cases h <;> rfl

/-- The order in which the write comes first: it is refused, and the command completes as it would
have. -/
theorem run_write_completion {s r : State} {d : Instr} {x : Slot} (hd : s.pend = some d)
    (hexec : exec d s = .next r) (hx : x ∈ [Slot.cmd, .key, .din, .chain]) (v : Word) :
    Host.Core.run Sys2Proof.core 2 ((s.turnOf .core).hostDoes (.write x v)) =
      .next (raise .busyWrite r) := by
  have hbusy : (s.turnOf .core).busy = true := (busy_iff _).mpr ⟨d, hd⟩
  have hwrite : step ((s.turnOf .core).hostDoes (.write x v)) =
      .next ((raise .busyWrite s).turnOf .core) := by
    rw [step_hostDoes_write, hostWrite_busy hx v hbusy]
    rfl
  have hcompletion : step ((raise .busyWrite s).turnOf .core) = .next (raise .busyWrite r) :=
    (step_turnOf_core (s := raise .busyWrite s) hd).trans (exec_raise hexec _)
  rw [run_succ 1 hwrite, run_one hcompletion]

/-- The order in which the completion comes first: the write finds the completed device. -/
theorem run_completion_write {s r : State} {d : Instr} (hd : s.pend = some d)
    (hexec : exec d s = .next r) (x : Slot) (v : Word) :
    Host.Core.run Sys2Proof.core 2 ((s.hostDoes (.write x v)).turnOf .core) =
      .next (hostWrite x v r) := by
  have hcompletion : step ((s.hostDoes (.write x v)).turnOf .core) =
      .next (r.hostDoes (.write x v)) :=
    (step_turnOf_core (s := s.hostDoes (.write x v)) hd).trans (exec_hostDoes hexec _)
  rw [run_succ 1 hcompletion, run_one (step_hostDoes_write x v r)]

/-- Settles O45, order by order; after the completion no command is pending, so the write is
accepted. -/
theorem writeRacesCompletion : Obligations.WriteRacesCompletion := by
  intro s r d v hd hexec refused coreFirst
  obtain ⟨hframe, -⟩ := exec_cases hexec
  have hrefused : raise .busyWrite r = refused r := by rw [hframe]; rfl
  have hidle : r.pend = none := by rw [hframe]
  have hafter (x : Slot) := run_completion_write hd hexec x v
  have hoperand (store : State → State) := writeOperand_idle store hidle
  refine ⟨fun x hx => hrefused ▸ run_write_completion hd hexec hx v, ?_, ?_, ?_, fun d' hw hk => ?_⟩
  · rw [hafter, hostWrite, hoperand]
  · rw [hafter, hostWrite, hoperand]
  · rw [hafter, hostWrite, hoperand]
  · rw [hafter, hostWrite, issueCommand_accept hidle hw hk, accept]

/-! ### Clearing the error record (R236) -/

theorem hostWrite_status_clear {v : Word} (hv : v.getLsbD 2 = true) (s : State) :
    hostWrite .status v s = clearError s := if_pos hv

/-- A clear and then a write: the write finds the device with its error record cleared. -/
theorem run_clear_write {v : Word} (hv : v.getLsbD 2 = true) (r : Slot) (w : Word) (s : State) :
    Host.Core.run Sys2Proof.core 2 ((s.hostDoes (.write r w)).hostDoes (.write .status v)) =
      .next (hostWrite r w (clearError s)) := by
  have hclear : step ((s.hostDoes (.write r w)).hostDoes (.write .status v)) =
      .next ((clearError s).hostDoes (.write r w)) := by
    rw [step_hostDoes_write, hostWrite_status_clear hv]
    rfl
  rw [run_succ 1 hclear, run_one (step_hostDoes_write r w _)]

/-- An error raised right after the clear is recorded afresh. -/
theorem raise_clearError (e : ErrCode) (s : State) :
    raise e (clearError s) = { s with err := true, ecode := e, raised := s.raised ++ [e] } := rfl

/-- Every write of a read-only slot raises BAD_WRITE (R33, R53). -/
theorem hostWrite_readOnly {r : Slot} (hr : r ∈ [Slot.dout, .reserved6, .reserved7]) (v : Word)
    (s : State) : hostWrite r v s = raise .badWrite s := by
  obtain rfl | rfl | rfl : r = .dout ∨ r = .reserved6 ∨ r = .reserved7 := by simpa using hr
  · rfl
  · rfl
  · rfl

/-- Settles O52, error by error: each is raised in the state that the clear leaves. -/
theorem clearAndRecordAfresh : Obligations.ClearAndRecordAfresh := by
  intro s v hv recorded clearThenWrite
  have hrecord {r : Slot} {w : Word} {e : ErrCode}
      (h : hostWrite r w (clearError s) = raise e (clearError s)) :
      clearThenWrite r w = recorded e :=
    (run_clear_write hv r w s).trans (by rw [h, raise_clearError])
  refine ⟨by rw [step_hostDoes_write, hostWrite_status_clear hv, clearError],
    fun r w hr => hrecord (hostWrite_readOnly hr w _),
    fun r w hpend hr => hrecord (hostWrite_busy hr w (Option.isSome_iff_ne_none.mpr hpend)),
    fun w hidle hw => hrecord (issueCommand_illegal (s := clearError s) hidle hw),
    fun w d hidle hw hneeds hkv =>
      hrecord (issueCommand_noKey (s := clearError s) hidle hw hneeds hkv),
    fun u t herr h hne => ?_⟩
  obtain ⟨-, -, e, he, rfl⟩ := step_raised h hne
  exact ⟨e, he, rfl, by simp [herr], rfl⟩

/-! ### The idle device (R245) -/

/-- Settles O54: every event that changes the device is a reset, a completion or a host write. -/
theorem idleKeepsState : Obligations.IdleKeepsState := by
  intro s t hidle hreset hwrite h
  obtain ⟨_, _, _, rfl⟩ | ⟨hn, -⟩ | ⟨d, -, hd, -⟩ | ⟨r, v, hn, hw, -⟩ := step_device_cases h
  · rfl
  · exact absurd hn hreset
  · rw [hidle] at hd
    cases hd
  · rw [hwrite hn] at hw
    cases hw

end Sys2Proof.Machine
end

section
/-! PROOFS. Reset and hazards (70_reset_and_hazards.md): what a reset leaves, the pending command
under the host's transactions, and the round-key file before a key is loaded. -/
namespace Sys2Proof.Machine

/-! ### Reset (R260, R261) -/

/-- Every slot reads 0 after a reset, whatever was pending. -/
theorem hostRead_resetDevice (r : Slot) (s : State) : hostRead r (resetDevice s) = 0 := by
  cases r with
  | status => simp [hostRead, statusWord_eq_ofNat, ErrCode.code, State.busy]
  | cmd | key | din | dout | chain | reserved6 | reserved7 => rfl

/-- Settles O53: the step is resetDevice. -/
theorem resetEffect : Obligations.ResetEffect := fun s =>
  ⟨resetDevice s, rfl, rfl, fun r => hostRead_resetDevice r s⟩

/-! ### One event, by whose turn it is (R62) -/

theorem step_of_host {s : State} (hn : nextTurn s = .host) : step s = hostTurn (popTurn s) := by
  rw [step, hn]

theorem step_of_core {s : State} {d : Instr} (hn : nextTurn s = .core) (hd : s.pend = some d) :
    step s = exec d (popTurn s) := by
  rw [step, hn]
  simp only [coreTurn, popTurn_pend, hd]

/-- With no command pending, the core's turn passes (log entry 16). -/
theorem step_of_core_idle {s : State} (hn : nextTurn s = .core) (hidle : s.pend = none) :
    step s = .next (popTurn s) := by
  rw [step, hn]
  simp only [coreTurn, popTurn_pend, hidle]

theorem step_of_reset {s : State} (hn : nextTurn s = .reset) :
    step s = .next (resetDevice (popTurn s)) := by
  rw [step, hn]

/-! ### The host while a command is pending (R265, R224) -/

/-- The two states agree on KEY, DIN, DOUT, CHAIN, KS, KV and PEND, and on the draws of KS made; the
error record and the host's side may differ. -/
def SameRegisters (s t : State) : Prop :=
  t = { s with
    err := t.err, ecode := t.ecode, script := t.script, turns := t.turns,
    reads := t.reads, raised := t.raised }

theorem SameRegisters.trans {s t u : State} (hst : SameRegisters s t) (htu : SameRegisters t u) :
    SameRegisters s u := by
  rw [SameRegisters, htu, hst]

/-- A completion reads the registers only, so it gives the same registers (R221, R224). -/
theorem SameRegisters.exec {s t r : State} (hst : SameRegisters s t) {d : Instr}
    (h : exec d s = .next r) : ∃ r', exec d t = .next r' ∧ SameRegisters r r' := by
  rw [hst]
  cases d <;> cases h <;> exact ⟨_, rfl, rfl⟩

/-- While a command is pending, a register write touches the error record only (R53, R220). -/
theorem hostWrite_pending (r : Slot) (v : Word) {s : State} (hbusy : s.busy = true) :
    ∃ err ecode raised,
      hostWrite r v s = { s with err := err, ecode := ecode, raised := raised } := by
  have hne : s.busy ≠ false := Bool.ne_false_iff.mpr hbusy
  obtain ⟨e, -, h⟩ | ⟨hidle, -⟩ | ⟨hidle, -⟩ | ⟨hidle, -⟩ | ⟨d, hidle, -⟩ | ⟨-, -, h⟩ | ⟨-, -, h⟩ :=
    hostWrite_cases r v s
  · exact ⟨_, _, _, h⟩
  · exact absurd hidle hne
  · exact absurd hidle hne
  · exact absurd hidle hne
  · exact absurd hidle hne
  · exact ⟨_, _, _, h⟩
  · exact ⟨_, _, _, h⟩

/-- While a command is pending, the host's turn keeps the registers and the turns still listed, and
adds nothing to the host's program. -/
theorem hostTurn_pending {s t : State} (hbusy : s.busy = true) (h : hostTurn s = .next t) :
    SameRegisters s t ∧ t.turns = s.turns ∧ t.script ⊆ s.script := by
  obtain rfl | ⟨-, rfl⟩ | ⟨r, rfl⟩ | ⟨r, v, -, rfl⟩ := hostTurn_cases h
  · exact ⟨rfl, rfl, List.Subset.refl _⟩
  · exact ⟨rfl, rfl, List.tail_subset _⟩
  · exact ⟨rfl, rfl, List.tail_subset _⟩
  · obtain ⟨err, ecode, raised, hw⟩ := hostWrite_pending r v (s := popScript s) hbusy
    rw [hw]
    exact ⟨rfl, rfl, List.tail_subset _⟩

/-- Settles O44: the step is the host's turn, which keeps the registers of a busy device. -/
theorem pendingProtected : Obligations.PendingProtected := by
  intro s t d hd hn h
  rw [step_of_host hn] at h
  obtain ⟨hsame, -, -⟩ := hostTurn_pending (s := popTurn s) ((busy_iff _).mpr ⟨d, hd⟩) h
  exact hsame

/-! ### The pending command completes (R266) -/

theorem isSome_slotOfIndex : ∀ i : Fin 8, (slotOfIndex i.val).isSome = true := by decide

/-- A well-formed access reaches a slot (R51). -/
theorem exists_busSlot {a : BusAccess} (h : a.wellFormed = true) : ∃ r, busSlot a = some r := by
  obtain ⟨-, i, hi⟩ := (wellFormed_iff a).mp h
  rw [busSlot, if_pos h, hi, Nat.mul_div_cancel_left _ (by decide)]
  exact Option.isSome_iff_exists.mp (isSome_slotOfIndex i)

/-- The host's turn has a next state if every raw access of its program is well formed (R51). -/
theorem hostTurn_completes {s : State} (hbus : ∀ a, HostOp.bus a ∈ s.script → a.wellFormed = true) :
    ∃ t, hostTurn s = .next t := by
  unfold hostTurn
  split
  · exact ⟨_, rfl⟩
  · exact ⟨_, rfl⟩
  · exact ⟨_, rfl⟩
  · exact ⟨_, rfl⟩
  next a ops hscript =>
    obtain ⟨r, hr⟩ := exists_busSlot (hbus a (by simp [hscript]))
    exact ⟨_, by rw [hr]⟩

/-- Under every order of events without a reset, the pending command is performed within one step
more than the turns listed, on the registers it has now. -/
theorem run_pending {d : Instr} (turns : List Turn) : ∀ {s r : State}, s.turns = turns →
    s.pend = some d → exec d s = .next r → (∀ x ∈ turns, x ≠ Turn.reset) →
    (∀ a, HostOp.bus a ∈ s.script → a.wellFormed = true) →
    ∃ n t, n ≤ turns.length + 1 ∧ Host.Core.run Sys2Proof.core n s = .next t ∧
      SameRegisters r t := by
  induction turns with
  | nil =>
    intro s r hturns hd hexec _ _
    exact ⟨1, r, Nat.le_refl 1, run_one ((step_turns_nil hturns hd).trans hexec), rfl⟩
  | cons x turns ih =>
    intro s r hturns hd hexec hreset hbus
    obtain ⟨hx, hrest⟩ := List.forall_mem_cons.mp hreset
    have hn : nextTurn s = x := by rw [nextTurn, hturns]
    have hpop : SameRegisters s (popTurn s) := rfl
    cases x with
    | reset => exact absurd rfl hx
    | core =>
      obtain ⟨t, ht, hsame⟩ := hpop.exec hexec
      exact ⟨1, t, Nat.le_add_left 1 _, run_one ((step_of_core hn hd).trans ht), hsame⟩
    | host =>
      obtain ⟨u, hu⟩ := hostTurn_completes (s := popTurn s) hbus
      have hbusy : (popTurn s).busy = true := (busy_iff _).mpr ⟨d, hd⟩
      obtain ⟨hsame, huturns, hscript⟩ := hostTurn_pending hbusy hu
      obtain ⟨r', hr', hsame'⟩ := (hpop.trans hsame).exec hexec
      have hud : u.pend = some d := (congrArg State.pend hsame).trans hd
      have hut : u.turns = turns := by rw [huturns, popTurn_turns, hturns, List.tail_cons]
      obtain ⟨n, t, hle, hrun, ht⟩ := ih hut hud hr' hrest fun a ha => hbus a (hscript ha)
      exact ⟨n + 1, t, Nat.succ_le_succ hle, (run_succ n ((step_of_host hn).trans hu)).trans hrun,
        hsame'.trans ht⟩

/-- Settles O43: the run ends in the registers of the completion performed at once. -/
theorem pendingCompletes : Obligations.PendingCompletes := by
  intro s r d hd hexec hreset hbus
  obtain ⟨n, t, hle, hrun, ht⟩ := run_pending s.turns rfl hd hexec hreset hbus
  obtain ⟨hr, -⟩ := exec_cases hexec
  refine ⟨n, t, hle, hrun, ?_⟩
  rw [ht]
  exact ⟨by rw [hr], by rw [hr], by rw [hr], rfl, rfl, rfl, rfl⟩

/-! ### KS before a key is loaded (R262, R34) -/

/-- The same state with other contents of the round-key file. -/
def State.withKs (s : State) (ks : Vector RoundKey 16) : State := { s with ks := ks }

section
variable (s : State) (ks : Vector RoundKey 16)

@[simp] theorem State.withKs_busy : (s.withKs ks).busy = s.busy := rfl
@[simp] theorem State.withKs_script : (s.withKs ks).script = s.script := rfl
@[simp] theorem popTurn_withKs : popTurn (s.withKs ks) = (popTurn s).withKs ks := rfl
@[simp] theorem popScript_withKs : popScript (s.withKs ks) = (popScript s).withKs ks := rfl
@[simp] theorem logRead_withKs (v : Word) : logRead v (s.withKs ks) = (logRead v s).withKs ks := rfl
@[simp] theorem raise_withKs (e : ErrCode) : raise e (s.withKs ks) = (raise e s).withKs ks := rfl

/-- No read shows KS (R34). -/
@[simp] theorem hostRead_withKs (r : Slot) : hostRead r (s.withKs ks) = hostRead r s := by
  cases r <;> rfl

/-- The issue of a command does not look at KS (R220). -/
theorem issueCommand_withKs (w : Word) :
    issueCommand w (s.withKs ks) = (issueCommand w s).withKs ks := by
  obtain ⟨hbusy, h⟩ | ⟨hidle, hw, h⟩ | ⟨d, hidle, hw, hneeds, hkv, h⟩ | ⟨d, hidle, hw, hk, h⟩ :=
    issueCommand_cases w s <;> rw [h]
  · exact issueCommand_busy (s := s.withKs ks) hbusy w
  · exact issueCommand_illegal (s := s.withKs ks) ((busy_eq_false_iff s).mp hidle) hw
  · exact issueCommand_noKey (s := s.withKs ks) ((busy_eq_false_iff s).mp hidle) hw hneeds hkv
  · exact issueCommand_accept (s := s.withKs ks) ((busy_eq_false_iff s).mp hidle) hw hk

/-- A store of an operand register that passes KS on still does so under the check of BUSY. -/
theorem writeOperand_withKs {store : State → State}
    (hstore : store (s.withKs ks) = (store s).withKs ks) :
    writeOperand store (s.withKs ks) = (writeOperand store s).withKs ks := by
  cases hbusy : s.busy <;> simp [writeOperand, hbusy, hstore]

/-- No register write looks at KS or changes it (R53, R66). -/
@[simp] theorem hostWrite_withKs (r : Slot) (v : Word) :
    hostWrite r v (s.withKs ks) = (hostWrite r v s).withKs ks := by
  cases r with
  | cmd => exact issueCommand_withKs s ks v
  | status =>
    simp only [hostWrite]
    split <;> rfl
  | key => exact writeOperand_withKs s ks (store := fun s => { s with key := v }) rfl
  | din => exact writeOperand_withKs s ks (store := fun s => { s with din := v }) rfl
  | chain => exact writeOperand_withKs s ks (store := fun s => { s with chain := v }) rfl
  | dout | reserved6 | reserved7 => rfl

@[simp] theorem busTransaction_withKs (a : BusAccess) (r : Slot) :
    busTransaction a r (s.withKs ks) = (busTransaction a r s).withKs ks := by
  cases hv : a.value <;> simp [busTransaction, hv]

end

/-- The host's turn neither looks at KS nor changes it (R34). -/
theorem hostTurn_withKs {s t : State} (h : hostTurn s = .next t) (ks : Vector RoundKey 16) :
    hostTurn (s.withKs ks) = .next (t.withKs ks) := by
  unfold hostTurn at h ⊢
  rw [State.withKs_script]
  split at h
  next => simpa using congrArg (State.withKs · ks) (Host.Outcome.next.inj h)
  next =>
    cases h
    simp
  next =>
    cases h
    simp
  next =>
    cases h
    rw [hostRead_withKs]
    split <;> rfl
  next =>
    split at h
    · cases h
      simp
    · cases h

/-- No transaction of the host changes KV (R25). -/
theorem hostTurn_kv {s t : State} (h : hostTurn s = .next t) : t.kv = s.kv := by
  obtain rfl | ⟨-, rfl⟩ | ⟨r, rfl⟩ | ⟨r, v, -, rfl⟩ := hostTurn_cases h
  · rfl
  · rfl
  · rfl
  · exact (hostWrite_ks_kv r v (popScript s)).2

/-- A completion that does not read KS either overwrites it or passes it on with KV as it was
(R220). -/
theorem exec_withKs {d : Instr} {s t : State} (hneeds : needsKV d = false) (h : exec d s = .next t)
    (ks : Vector RoundKey 16) :
    exec d (s.withKs ks) = .next t ∨
      (t.kv = s.kv ∧ exec d (s.withKs ks) = .next (t.withKs ks)) := by
  cases d with
  | keyldRaw | keyldCmp => exact .inl h
  | enc | dec | cbcEnc | cbcDec | cfbEnc | cfbDec | ffunc | rkrd => cases hneeds
  | nop | permIp | permFp | permE | permP | permPc1 | permPc2 | sbox =>
    cases h
    exact .inr ⟨rfl, rfl⟩

/-- Settles O55, event by event: a reset draws KS afresh, a key load overwrites it, and no other
completion and no transaction of the host looks at it. -/
theorem ksUnobservable : Obligations.KsUnobservable := by
  intro s t ks hkv hpend h
  change ∃ t', step (s.withKs ks) = .next t' ∧ (t' = t ∨ (t.kv = false ∧ t' = t.withKs ks))
  obtain ⟨hn, rfl⟩ | ⟨hn, hidle, rfl⟩ | ⟨d, hn, hd, he⟩ | ⟨hn, hhost⟩ := step_cases h
  · exact ⟨_, step_of_reset (s := s.withKs ks) hn, .inl rfl⟩
  · exact ⟨_, step_of_core_idle (s := s.withKs ks) hn hidle, .inr ⟨hkv, rfl⟩⟩
  · have hstep := step_of_core (s := s.withKs ks) hn hd
    obtain hload | ⟨hkeep, hpass⟩ := exec_withKs (hpend d hd) he ks
    · exact ⟨t, hstep.trans hload, .inl rfl⟩
    · exact ⟨_, hstep.trans hpass, .inr ⟨hkeep.trans hkv, rfl⟩⟩
  · have hkeep : t.kv = s.kv := hostTurn_kv (s := popTurn s) hhost
    exact ⟨_, (step_of_host (s := s.withKs ks) hn).trans (hostTurn_withKs hhost ks),
      .inr ⟨hkeep.trans hkv, rfl⟩⟩

end Sys2Proof.Machine
end

section
/-! PROOFS. The sample words (95_test_vectors.md): the decoder on a command's own word, the decoder
for each cause of illegality, and the words of V50 and V51. -/
namespace Sys2Proof.Machine

/-- A command's own word decodes to the command (R85). -/
theorem decode_encode (i : Instr) : decode (encode i) = .ok i :=
  (decodeIffEncode (encode i) i).mpr rfl

/-- A word with a reserved bit set is illegal, whatever its OP and RIDX (R83). -/
theorem decode_of_rsvdField_ne_zero {w : Word} (hrsvd : rsvdField w ≠ 0) :
    decode w = .error .rsvdNonzero := by
  rw [decode, if_pos hrsvd]

/-- A word with no reserved bit set and an unassigned OP is illegal for its OP (R86, R87). -/
theorem decode_of_mnemonicOf_eq_none {w : Word} (hrsvd : rsvdField w = 0)
    (hop : mnemonicOf (opField w) (ridxIndex w) = none) : decode w = .error .unassignedOp := by
  rw [decode, if_neg (not_not.mpr hrsvd), hop]

/-- A word with no reserved bit set, and with a RIDX where its command takes none, is illegal for
its RIDX (R83). -/
theorem decode_of_ridxField_ne_zero {w : Word} {i : Instr} (hrsvd : rsvdField w = 0)
    (hop : mnemonicOf (opField w) (ridxIndex w) = some i) (huses : opUsesRidx (opField w) = false)
    (hridx : ridxField w ≠ 0) : decode w = .error .ridxNonzero := by
  rw [decode, if_neg (not_not.mpr hrsvd), hop]
  simpa [huses] using hridx

/-- Settles O1: each legal word (R81, V50) is its command's own encoding, and each illegal word (V51)
has one of the three causes, read off its fields. -/
theorem decodeSampleWords : Obligations.DecodeSampleWords :=
  ⟨decode_encode .nop,
    decode_encode .keyldRaw,
    decode_encode .keyldCmp,
    decode_encode .enc,
    decode_encode .cbcDec,
    decode_encode .permP,
    decode_encode (.ffunc 15),
    decode_encode (.rkrd 5),
    decode_of_ridxField_ne_zero (i := .enc) rfl rfl rfl (by decide),
    decode_of_rsvdField_ne_zero (by decide),
    decode_of_rsvdField_ne_zero (by decide),
    decode_of_mnemonicOf_eq_none rfl rfl⟩

end Sys2Proof.Machine
end
